-- ==== Sys2Proof/Word.lean ====
section
/-!
DEFINITION. The words of the PL-204's memory and bus, and plain containers of a fixed size.
-/

namespace Sys2Proof

/-- One byte of the serial memory (00, section 6.6). -/
abbrev Byte := BitVec 8

/-- A two-byte word address as the host sends it (09, section 9.1). -/
abbrev Addr := BitVec 16

/-- A thing for each of the eight validator classes (class n has index n - 1). -/
structure Eight (α : Type) where
  v0 : α
  v1 : α
  v2 : α
  v3 : α
  v4 : α
  v5 : α
  v6 : α
  v7 : α
  deriving DecidableEq, Repr

/-- A thing for each of the six outer electrodes (channel c has index c - 1). -/
structure Six (α : Type) where
  v0 : α
  v1 : α
  v2 : α
  v3 : α
  v4 : α
  v5 : α
  deriving DecidableEq, Repr

namespace Eight

variable {α β γ : Type}

def all (a : α) : Eight α := ⟨a, a, a, a, a, a, a, a⟩

def get (e : Eight α) : Fin 8 → α
  | 0 => e.v0
  | 1 => e.v1
  | 2 => e.v2
  | 3 => e.v3
  | 4 => e.v4
  | 5 => e.v5
  | 6 => e.v6
  | 7 => e.v7

def put (e : Eight α) (i : Fin 8) (a : α) : Eight α :=
  match i with
  | 0 => { e with v0 := a }
  | 1 => { e with v1 := a }
  | 2 => { e with v2 := a }
  | 3 => { e with v3 := a }
  | 4 => { e with v4 := a }
  | 5 => { e with v5 := a }
  | 6 => { e with v6 := a }
  | 7 => { e with v7 := a }

def map (f : α → β) (e : Eight α) : Eight β :=
  ⟨f e.v0, f e.v1, f e.v2, f e.v3, f e.v4, f e.v5, f e.v6, f e.v7⟩

def zip (f : α → β → γ) (e : Eight α) (d : Eight β) : Eight γ :=
  ⟨f e.v0 d.v0, f e.v1 d.v1, f e.v2 d.v2, f e.v3 d.v3, f e.v4 d.v4, f e.v5 d.v5, f e.v6 d.v6, f e.v7 d.v7⟩

def toList (e : Eight α) : List α := [e.v0, e.v1, e.v2, e.v3, e.v4, e.v5, e.v6, e.v7]

end Eight

namespace Six

variable {α β γ : Type}

def all (a : α) : Six α := ⟨a, a, a, a, a, a⟩

def get (e : Six α) : Fin 6 → α
  | 0 => e.v0
  | 1 => e.v1
  | 2 => e.v2
  | 3 => e.v3
  | 4 => e.v4
  | 5 => e.v5

def put (e : Six α) (i : Fin 6) (a : α) : Six α :=
  match i with
  | 0 => { e with v0 := a }
  | 1 => { e with v1 := a }
  | 2 => { e with v2 := a }
  | 3 => { e with v3 := a }
  | 4 => { e with v4 := a }
  | 5 => { e with v5 := a }

def map (f : α → β) (e : Six α) : Six β := ⟨f e.v0, f e.v1, f e.v2, f e.v3, f e.v4, f e.v5⟩

def zip (f : α → β → γ) (e : Six α) (d : Six β) : Six γ :=
  ⟨f e.v0 d.v0, f e.v1 d.v1, f e.v2 d.v2, f e.v3 d.v3, f e.v4 d.v4, f e.v5 d.v5⟩

def toList (e : Six α) : List α := [e.v0, e.v1, e.v2, e.v3, e.v4, e.v5]

end Six

end Sys2Proof
end

