-- ==== Sys2Proof/Syntax.lean ====
section
/-!
DEFINITION. The commands of the PL-204: one constructor for each row of spec/opcode_table.json, with the row's operands.
A command that stands for a timer running out, of which several may run at once, names the one that ran out.
A command that meets the serial memory carries the memory's answer (log 5).
-/

namespace Sys2Proof

/-- What the validator says at a strobe (01, section 1.1): VREJ, or a class code on VCL0 to VCL2 (code 0 is class 1). -/
inductive StrobeAnswer where
  | reject
  | classCode (code : Fin 8)
  deriving DecidableEq, Repr

/-- The 14 keys (R59). -/
inductive Key where
  | digit (d : Fin 10)
  | star
  | hash
  | followOn
  | clear
  deriving DecidableEq, Repr

/-- The sixteen incident kinds (08, section 8.1), in the order of their codes 01 to 16. -/
inductive IncidentKind where
  | vaultOpen | vaultPry | vaultOvertime | slotJam | slotForced | slotProbe | stringing | chuteBlocked
  | flapFault | cordPull | cordCut | keypadForce | displayStrike | housingForce | offhookHold | accountFault
  deriving DecidableEq, Repr

/-- How a host write ends (09, section 9.3; R157, R161). -/
inductive WriteEnd where
  | stop
  /-- A repeated start with the memory's device address: the transaction goes on with the host's next command. -/
  | repeatedStart
  /-- A repeated start with another device's address. -/
  | otherDevice
  /-- The memory has not acknowledged a word-address byte, and the host stops. -/
  | refusedAddress
  /-- The memory has not acknowledged the byte after the write's data, and the host stops. -/
  | refusedByte
  deriving DecidableEq, Repr

/-- The course of an address probe, an address setting or a read on the bus (09, section 9.1): the memory's answer `ack` to its
device address, and whether the host ends it with a repeated start that has the memory's device address `again`, so that the
transaction goes on with the host's next command. It ends with a stop otherwise, or with a repeated start to another device. -/
structure HostCourse where
  ack : Bool
  again : Bool
  deriving DecidableEq, Repr

/-- Where the memory has not acknowledged an own transaction (R171). -/
inductive NakAt where
  /-- At its device address or at a word-address byte. -/
  | inAddress
  /-- At the data byte after `k` acknowledged ones. -/
  | atData (k : Nat)
  deriving DecidableEq, Repr

/-- A failed attempt at an own transaction: where the memory has not acknowledged it, and the memory's answer `ack` to a host
transaction that was held and is forwarded after the failure. -/
structure OwnNak where
  at_ : NakAt
  ack : Bool
  deriving DecidableEq, Repr

/-- Where a start or stop in the middle of a byte broke off a host transaction (the rows of R165's table). -/
inductive BrokenAt where
  /-- Before the second word-address byte is complete; `acked`: behind the device address, which the memory has acknowledged. -/
  | inAddress (acked : Bool)
  /-- In a write to `addr` after the complete data bytes `data`. -/
  | inWrite (addr : Addr) (data : List Byte)
  /-- In a read after `n` complete bytes: a random read from `addr`, or a current-address read (none). -/
  | inRead (addr : Option Addr) (n : Nat)
  deriving DecidableEq, Repr

/-- Where the hold of R168 reached its limit. -/
inductive HoldPoint where
  /-- At the acknowledge bit of a held host transaction's device address. -/
  | atAcknowledge
  /-- At the acknowledge bit of a word-address byte. -/
  | inAddress
  /-- At the acknowledge bit of the byte that follows the complete data bytes `data` of a write to `addr`. -/
  | inWrite (addr : Addr) (data : List Byte)
  /-- Before a data byte of a read that has given `n` bytes: a random read from `addr`, or a current-address read. -/
  | inRead (addr : Option Addr) (n : Nat)
  deriving DecidableEq, Repr

/-- The 89 rows of the table. Requests carry the tag of their request record and its parameters (11, section 11.3). -/
inductive Instr where
  | powerOnReset
  | rstReset
  | resettingEnd
  | pfwAssert
  | pfwClear
  | clockSecond
  | entry
  | validatorStrobe (answer : StrobeAnswer)
  | acceptEnd
  | transitDeadlineExpiry (number : Nat)
  | failedTransitReturn (number : Nat)
  | escinActive
  | escinInactive
  | stringingTimeout
  | releaseStart
  | flapPulseEnd
  | deadTimeEnd
  | confirmationWindowExpiry
  | vaultin
  | returnEvent
  | purgePulseStart
  | purgePulseEnd
  | purgeEnd
  | chargingStep
  | graceExpiry
  | meterPulse
  | pipPatternTimer
  | activateTariff (tag bank : Byte) (version : BitVec 16)
  | keyEvent (key : Key)
  | keyTake
  | silenceTimeout
  | offHook
  | onHook
  | handsetLoss
  | grantTimeout
  | offhookHoldTimeout
  | depositTimeout
  | answerTimeout
  | assumedAnswerTimeout
  | reversalPresent
  | clearBack
  | followOnWindowExpiry
  | ackCalls (tag : Byte) (seq : BitVec 16)
  | guardEnd
  | dialToneQualified
  | dialToneTimeout
  | loopLoss
  | toneOnEnd
  | toneOffEnd
  | decadicBreakEnd
  | decadicMakeEnd
  | interDigitPauseEnd
  | acktoneDetection
  | doorOpen
  | doorClose
  | boxEvent (present : Bool)
  | serviceWindowExpiry
  | openService (tag minutes : Byte)
  | closeService (tag : Byte)
  | clearBlock (tag reason : Byte)
  /-- The raw counts of channels 0 to 6, in that order. -/
  | tamperScan (raw : List (BitVec 16))
  /-- `channel` 0 is electrode channel 1. -/
  | haltTimeout (channel : Fin 6)
  | reseedTamper (tag channels : Byte)
  | contextSettlingExpiry
  | loiterTimeout
  | contRestored
  | quietTimeout (kind : IncidentKind)
  | ackIncidents (tag : Byte) (seq : BitVec 16)
  | testReport (tag : Byte)
  | retryTimeout
  | readyToneTimeout
  | kissoffTimeout
  | hostPassedWrite (addr : Addr) (data : List Byte) (ending : WriteEnd) (ack : Bool)
  | hostVetoedWrite (addr : Addr) (data : List Byte) (ending : WriteEnd) (ack : Bool)
  /-- Without an address: the device address alone. With one: an address setting. -/
  | hostAddressProbe (addr : Option Addr) (course : HostCourse)
  | hostRandomRead (addr : Addr) (n : Nat) (course : HostCourse)
  | hostCurrentAddressRead (n : Nat) (course : HostCourse)
  | busError (at_ : BrokenAt)
  | clockHoldLimit (at_ : HoldPoint)
  | ownTransactionStart (ack : Bool)
  | ownWriteConfirmed
  | ownReadComplete
  | memoryPoll (ack : Bool)
  | memoryFault
  | ownAttemptFailure (failed : OwnNak)
  | setClock (tag : Byte) (day : BitVec 16) (seconds : BitVec 24)
  | reloadConfig (tag : Byte)
  | endOfReset
  | ownWriteStop
  deriving DecidableEq, Repr

end Sys2Proof
end

