-- ==== Sys2Proof/Config.lean ====
section
/-!
DEFINITION. The configuration block's items (10, section 10.3; 11, section 11.4) with their defaults, and the free values:
constants without a body, which no proof can evaluate (log 7).
-/

namespace Sys2Proof

/-- Dial method (codes 0 and 1 of 11, section 11.7). -/
inductive DialMethod where
  | tone
  | decadic
  deriving DecidableEq, Repr

/-- Answer supervision of the line. -/
inductive Supervision where
  | supervised
  | unsupervised
  deriving DecidableEq, Repr

/-- An entry of the arm matrix (R135). -/
inductive ArmLevel where
  | none
  | contact
  | forced
  deriving DecidableEq, Repr

/-- The thresholds of one channel (07, section 7.1). -/
structure Thresholds where
  near : Nat
  contact : Nat
  forced : Nat
  deriving DecidableEq, Repr

/-- The arm levels of one channel in the three contexts (07, section 7.6). -/
structure ArmRow where
  idle : ArmLevel
  inUse : ArmLevel
  service : ArmLevel
  deriving DecidableEq, Repr

/-- A thing for each incident kind. -/
structure PerKind (α : Type) where
  vaultOpen : α
  vaultPry : α
  vaultOvertime : α
  slotJam : α
  slotForced : α
  slotProbe : α
  stringing : α
  chuteBlocked : α
  flapFault : α
  cordPull : α
  cordCut : α
  keypadForce : α
  displayStrike : α
  housingForce : α
  offhookHold : α
  accountFault : α
  deriving DecidableEq, Repr

namespace PerKind

variable {α β : Type}

def all (a : α) : PerKind α := ⟨a, a, a, a, a, a, a, a, a, a, a, a, a, a, a, a⟩

def get (e : PerKind α) : IncidentKind → α
  | .vaultOpen => e.vaultOpen
  | .vaultPry => e.vaultPry
  | .vaultOvertime => e.vaultOvertime
  | .slotJam => e.slotJam
  | .slotForced => e.slotForced
  | .slotProbe => e.slotProbe
  | .stringing => e.stringing
  | .chuteBlocked => e.chuteBlocked
  | .flapFault => e.flapFault
  | .cordPull => e.cordPull
  | .cordCut => e.cordCut
  | .keypadForce => e.keypadForce
  | .displayStrike => e.displayStrike
  | .housingForce => e.housingForce
  | .offhookHold => e.offhookHold
  | .accountFault => e.accountFault

def put (e : PerKind α) (k : IncidentKind) (a : α) : PerKind α :=
  match k with
  | .vaultOpen => { e with vaultOpen := a }
  | .vaultPry => { e with vaultPry := a }
  | .vaultOvertime => { e with vaultOvertime := a }
  | .slotJam => { e with slotJam := a }
  | .slotForced => { e with slotForced := a }
  | .slotProbe => { e with slotProbe := a }
  | .stringing => { e with stringing := a }
  | .chuteBlocked => { e with chuteBlocked := a }
  | .flapFault => { e with flapFault := a }
  | .cordPull => { e with cordPull := a }
  | .cordCut => { e with cordCut := a }
  | .keypadForce => { e with keypadForce := a }
  | .displayStrike => { e with displayStrike := a }
  | .housingForce => { e with housingForce := a }
  | .offhookHold => { e with offhookHold := a }
  | .accountFault => { e with accountFault := a }

def map (f : α → β) (e : PerKind α) : PerKind β :=
  ⟨f e.vaultOpen, f e.vaultPry, f e.vaultOvertime, f e.slotJam, f e.slotForced, f e.slotProbe, f e.stringing,
   f e.chuteBlocked, f e.flapFault, f e.cordPull, f e.cordCut, f e.keypadForce, f e.displayStrike, f e.housingForce,
   f e.offhookHold, f e.accountFault⟩

end PerKind

/-- The kinds in the order of their codes. -/
def IncidentKind.list : List IncidentKind :=
  [.vaultOpen, .vaultPry, .vaultOvertime, .slotJam, .slotForced, .slotProbe, .stringing, .chuteBlocked,
   .flapFault, .cordPull, .cordCut, .keypadForce, .displayStrike, .housingForce, .offhookHold, .accountFault]

/-- The configuration in force: every item of the block (R178). Times in ms or s as the settings tables give them. -/
structure Settings where
  stationId : List Nat
  reportNumber : List Nat
  emergency : List (List Nat)
  values : Eight Nat
  dialMethod : DialMethod
  supervision : Supervision
  toneOn : Nat
  toneOff : Nat
  dialToneTimeout : Nat
  assumedDelay : Nat
  offhookHold : Nat
  pulse : Nat
  deadTime : Nat
  almostFull : Nat
  capacity : Nat
  margin : Nat
  ringMargin : Nat
  scanInterval : Nat
  filterShift : Nat
  baseShift : Nat
  refShift : Nat
  weight : Nat
  debounce : Nat
  haltLimit : Nat
  loiter : Nat
  thresholds : Six Thresholds
  arms : Six ArmRow
  severity : PerKind Nat
  deriving DecidableEq, Repr

/-- The arm matrix defaults (07, section 7.6). -/
def defaultArms : Six ArmRow :=
  ⟨⟨.forced, .forced, .none⟩, ⟨.contact, .contact, .none⟩, ⟨.forced, .forced, .none⟩,
   ⟨.forced, .forced, .none⟩, ⟨.forced, .forced, .none⟩, ⟨.contact, .forced, .none⟩⟩

/-- The default severities (08, section 8.1). -/
def defaultSeverity : PerKind Nat :=
  ⟨3, 3, 2, 2, 2, 1, 2, 2, 2, 2, 3, 2, 1, 2, 1, 3⟩

/-- The defaults, in force while CONFIG_FAULT stands (R179): coin values 0, emergency list and report number empty,
station id 0, and every settings table's default. -/
def Settings.default : Settings where
  stationId := [0]
  reportNumber := []
  emergency := []
  values := Eight.all 0
  dialMethod := .tone
  supervision := .supervised
  toneOn := 70
  toneOff := 70
  dialToneTimeout := 5
  assumedDelay := 20
  offhookHold := 90
  pulse := 80
  deadTime := 30
  almostFull := 2
  capacity := 1500
  margin := 50
  ringMargin := 16
  scanInterval := 40
  filterShift := 2
  baseShift := 8
  refShift := 10
  weight := 4
  debounce := 2
  haltLimit := 120
  loiter := 20
  thresholds := Six.all ⟨120, 300, 900⟩
  arms := defaultArms
  severity := defaultSeverity

namespace Config

/-- FREE VALUE: how many bytes of an own write that a reset cut short the memory has stored (R158; log 7). -/
opaque tornBytes : Nat → Nat

/-- FREE VALUE: which accepted record a start-up scan takes as the highest when no accepted sequence is free of a newer
one: a place in the list of accepted sequences, in slot order (R182, R183; log 7). -/
opaque scanPick : List Nat → Nat

/-- FREE VALUE: the difference of two vault figures whose lifetime figure is below its baseline (R112, R118; log 7). -/
opaque belowBaseline : Nat → Nat → Nat

end Config

end Sys2Proof
end

