-- ==== Sys2Proof/Machine/State.lean ====
section
/-!
DEFINITION. The state of the PL-204, block by block (00, section 3), as plain data, with the serial memory on its memory
port and the queue of waiting commands; the reasons a step can stop; and State.reset.
Instants are milliseconds of the internal time base `now`; an absent instant is a stopped timer.
-/

namespace Sys2Proof.Machine

/-! ### Station clock and start-up (10) -/

/-- R180. -/
structure Clock where
  day : Nat
  sec : Nat
  isSet : Bool
  /-- The instant of the next advance: one second after the setting, then every second. -/
  nextSecond : Option Nat
  deriving DecidableEq, Repr

/-- A time as records carry it: both parts 0 and the mark clear while the clock is not set (R180). -/
structure Stamp where
  day : Nat
  sec : Nat
  isSet : Bool
  deriving DecidableEq, Repr

inductive Phase where
  | resetting | scanning | purging | settling | ready
  deriving DecidableEq, Repr

/-- What an own read is for. -/
inductive ReadFor where
  | config | vault | bank | ring | log
  deriving DecidableEq, Repr

/-- R181. `ring` and `log` hold the records the scans have accepted so far, each with its sequence. -/
structure Startup where
  phase : Phase
  step : Nat
  rstHeld : Bool
  resettingEnd : Option Nat
  /-- The next read of steps 2, 4 and 5, waiting for its producer's quota: purpose and page. -/
  want : Option (ReadFor × Nat)
  /-- Pages A to D as read in step 2; a page whose read was dropped is none. -/
  vaultPages : List (Option (List Byte))
  /-- Accepted ring records: sequence and the 64 bytes. -/
  ring : List (Nat × List Byte)
  rewrites : Nat
  log : List Nat
  deriving DecidableEq, Repr

/-- The output pins (00, section 4). -/
structure Pins where
  slotGate : Bool
  accept : Bool
  flapC : Bool
  flapR : Bool
  seize : Bool
  mute : Bool
  pip : Bool
  toneOn : Bool
  td : Nat
  deriving DecidableEq, Repr

/-! ### Coin path (01) -/

inductive TransitState where
  | entered | accepted | diverted | rejected
  deriving DecidableEq, Repr

/-- R3. -/
structure Transit where
  number : Nat
  st : TransitState
  cls : Option (Fin 8)
  deadline : Option Nat
  atSensor : Bool
  deriving DecidableEq, Repr

inductive EscrowState where
  | held | releasingCollect | releasingReturn
  deriving DecidableEq, Repr

inductive Standing where
  | credit | committed | heldOver
  deriving DecidableEq, Repr

/-- R11; a stray has no class. -/
structure Escrow where
  seq : Nat
  cls : Option (Fin 8)
  value : Nat
  st : EscrowState
  standing : Standing
  deriving DecidableEq, Repr

inductive FlapState where
  | idle | pulse | window | settle
  deriving DecidableEq, Repr

inductive Coil where
  | collect | return_
  deriving DecidableEq, Repr

/-- The release in flight (R15, R18), with the pulse width it started with (R1). -/
structure InFlight where
  coil : Coil
  retry : Bool
  windowEnd : Nat
  pulse : Nat
  deriving DecidableEq, Repr

/-- An ESCIN passage in progress (R8, R9): the transit number it is bound to, and whether its 250 ms have run out. -/
structure Passage where
  bound : Option Nat
  strung : Bool
  limit : Nat
  deriving DecidableEq, Repr

structure CoinPath where
  transit : List Transit
  nextTransit : Nat
  escrow : List Escrow
  nextEscrow : Nat
  passage : Option Passage
  flap : FlapState
  inFlight : Option InFlight
  pulseEnd : Option Nat
  deadEnd : Option Nat
  /-- A return-all in progress, with the value refunded since it began (R13). -/
  returnAll : Option Nat
  failedReturns : Nat
  strayStrobes : Nat
  strayReturns : Nat
  strayVault : Nat
  purged : Nat
  acceptEnd : Option Nat
  purgeStarted : Bool
  purgeDone : Nat
  purgePulseEnd : Option Nat
  purgeNext : Option Nat
  purgeLast : Option Nat
  deriving DecidableEq, Repr

/-! ### Rating engine (02) -/

/-- The call account (R28); A is E + B and is computed from them. -/
structure Account where
  b : Nat
  e : Nat
  c : Nat
  o : Nat
  units : Nat
  inserted : Nat
  refunded : Nat
  held : Nat
  forfeited : Nat
  shortfall : Nat
  carryIn : Nat
  carryOut : Nat
  sat : Bool
  lowCredit : Bool
  deriving DecidableEq, Repr

inductive BandMode where
  | localBand | meter
  deriving DecidableEq, Repr

inductive Bank where
  | a | b
  deriving DecidableEq, Repr

/-- The rating context (R31); an EMERGENCY call has no band. -/
structure RatingContext where
  bank : Bank
  version : Nat
  band : Option Nat
  mode : BandMode
  uncharged : Bool
  initial : Nat
  delay : Nat
  stepLen : Nat
  uPeak : Nat
  uOff : Nat
  pulseValue : Nat
  offStart : Nat
  offEnd : Nat
  factor : Nat
  grace : Nat
  deriving DecidableEq, Repr

structure Rating where
  ctx : Option RatingContext
  /-- The start of the next charging step (R35). -/
  nextStep : Option Nat
  graceEnd : Option Nat
  deriving DecidableEq, Repr

inductive PipMode where
  | off | slow | fast
  deriving DecidableEq, Repr

/-- The PIP pattern of R44. -/
structure PipGen where
  mode : PipMode
  high : Bool
  next : Option Nat
  deriving DecidableEq, Repr

/-! ### Tariff banks and number analysis (03) -/

/-- A band of a shadow table (R53). -/
structure Band where
  mode : BandMode
  free : Bool
  barred : Bool
  initial : Nat
  delay : Nat
  uPeak : Nat
  uOff : Nat
  pulseValue : Nat
  stepLen : Nat
  deposit : Nat
  clamped : Bool
  deriving DecidableEq, Repr

/-- An entry of a prefix shadow (R53). -/
structure Route where
  digits : List Nat
  band : Nat
  minLen : Nat
  maxLen : Nat
  deriving DecidableEq, Repr

structure Shadow where
  version : Nat
  offStart : Nat
  offEnd : Nat
  increment : Nat
  factor : Nat
  grace : Nat
  bands : List Band
  routes : List Route
  deriving DecidableEq, Repr

/-- No valid active shadow: both tables empty (R49). DESIGN CHOICE: its header terms, to which the spec gives no value, are
version 0, off-peak start and end 0, increment K 1, factor W 1 and grace G 0 (log 6). -/
def Shadow.empty : Shadow := ⟨0, 0, 0, 1, 1, 0, [], []⟩

inductive Activation where
  | none | validating | pending
  deriving DecidableEq, Repr

/-- A failing item or a start-up outcome: codes of area, index and reason (R52, R178; 11, section 11.7). -/
structure Finding where
  area : Nat
  index : Nat
  reason : Nat
  deriving DecidableEq, Repr

def Finding.none : Finding := ⟨0, 0, 0⟩

/-- A bank validation in progress (R51); at start-up no version is compared. -/
structure Validation where
  bank : Bank
  expected : Option Nat
  image : List Byte
  /-- Pages to read in all, known once the header has passed. -/
  pages : Nat
  deriving DecidableEq, Repr

structure Tariff where
  bank : Bank
  version : Nat
  shadow : Shadow
  clamped : Nat
  activation : Activation
  pendBank : Bank
  pendVersion : Nat
  pendShadow : Option Shadow
  check : Option Validation
  /-- The next validation read, waiting for the rating engine's quota. -/
  wantRead : Option Nat
  /-- A BANK_SWITCH waiting for the rating engine's quota. -/
  heldSwitch : Bool
  unwritten : Bool
  bankSet : Bool
  outcome : Finding
  deriving DecidableEq, Repr

inductive Refusing where
  | none | noRoute | refusedBarred | refusedBlocked | undiallable | noDeposit
  deriving DecidableEq, Repr

structure NumberAnalyser where
  keys : List Key
  dropped : Nat
  buffer : List Nat
  silenceEnd : Option Nat
  refused : Nat
  lastRefusal : Refusing
  deriving DecidableEq, Repr

/-! ### Call controller (04) -/

inductive CallState where
  | idle | seizing | collect | awaitDeposit | dialling | ringing | connected | grace | afterCall | clearing | parked
  deriving DecidableEq, Repr

inductive Hook where
  | on | off
  deriving DecidableEq, Repr

inductive EndCause where
  | none | callerCleared | farCleared | followOn | noAnswer | creditExhausted | lineLost | noDialtone | handsetLost
  | preempted | noDeposit | powerFail
  deriving DecidableEq, Repr

inductive BlockReason where
  | slotJam | chuteBlocked | flapFault | vaultFull | ringFull | tariffFault | accountFault | configFault
  deriving DecidableEq, Repr

/-- The block-reason set (R83): each reason present or absent. -/
structure Reasons where
  slotJam : Bool
  chuteBlocked : Bool
  flapFault : Bool
  vaultFull : Bool
  ringFull : Bool
  tariffFault : Bool
  accountFault : Bool
  configFault : Bool
  deriving DecidableEq, Repr

def Reasons.empty : Reasons := ⟨false, false, false, false, false, false, false, false⟩

def Reasons.has (r : Reasons) : BlockReason → Bool
  | .slotJam => r.slotJam
  | .chuteBlocked => r.chuteBlocked
  | .flapFault => r.flapFault
  | .vaultFull => r.vaultFull
  | .ringFull => r.ringFull
  | .tariffFault => r.tariffFault
  | .accountFault => r.accountFault
  | .configFault => r.configFault

def Reasons.put (r : Reasons) (x : BlockReason) (v : Bool) : Reasons :=
  match x with
  | .slotJam => { r with slotJam := v }
  | .chuteBlocked => { r with chuteBlocked := v }
  | .flapFault => { r with flapFault := v }
  | .vaultFull => { r with vaultFull := v }
  | .ringFull => { r with ringFull := v }
  | .tariffFault => { r with tariffFault := v }
  | .accountFault => { r with accountFault := v }
  | .configFault => { r with configFault := v }

inductive RouteKind where
  | paid | free | emergency
  deriving DecidableEq, Repr

/-- The states of a queued call record (R87, R93): a checkpoint is an INTERRUPTED record of a running call, a rewrite is
the INTERRUPTED record that start-up makes (R182). -/
inductive RecordKind where
  | openRec | checkpoint | closed | rewrite
  deriving DecidableEq, Repr

/-- A call record on its way to the ring: its 62 bytes before the check word. -/
structure CallRecord where
  seq : Nat
  kind : RecordKind
  body : List Byte
  deriving DecidableEq, Repr

/-- R69, R85. -/
structure CallControl where
  st : CallState
  hook : Hook
  waiting : Bool
  cause : EndCause
  lastCause : EndCause
  followOn : Bool
  grantEnd : Option Nat
  depositEnd : Option Nat
  answerEnd : Option Nat
  assumedEnd : Option Nat
  holdEnd : Option Nat
  followEnd : Option Nat
  holdFlag : Bool
  reasons : Reasons
  seq : Option Nat
  kind : RouteKind
  number : List Nat
  deposit : Nat
  dialTime : Stamp
  answered : Bool
  answeredAt : Option Nat
  duration : Nat
  nextSeq : Nat
  lastFinal : Nat
  ackedSeq : Nat
  almostFull : Bool
  unrecorded : Nat
  heldRecords : List CallRecord
  deriving DecidableEq, Repr

/-! ### Line controller (05) -/

inductive LineOwner where
  | none | call | report
  deriving DecidableEq, Repr

inductive LineState where
  | released | guarding | seizing | ready | sending | awaitAnswer | answered
  deriving DecidableEq, Repr

/-- What the sequence in the sender is (the rows of R103's table). -/
inductive SendOrigin where
  | number | message | afterAnswer
  deriving DecidableEq, Repr

inductive SendPhase where
  | idle | toneOn | toneOff | breaking | making | pause
  deriving DecidableEq, Repr

structure Line where
  owner : LineOwner
  st : LineState
  callReq : Bool
  reportReq : Bool
  reservation : Bool
  queue : List Nat
  mode : DialMethod
  origin : SendOrigin
  tOn : Nat
  tOff : Nat
  phase : SendPhase
  /-- Breaks of the digit in progress still to be made, the present one included. -/
  breaks : Nat
  phaseEnd : Option Nat
  reversal : Bool
  loopSuspended : Bool
  seizeFails : Nat
  lineLosses : Nat
  guardEnd : Option Nat
  dialToneEnd : Option Nat
  deriving DecidableEq, Repr

/-! ### Vault accounting (06) -/

/-- Counts of coins and strays with a value: lifetime totals or baseline (R110). -/
structure Counts where
  coins : Eight Nat
  stray : Nat
  value : Nat
  deriving DecidableEq, Repr

def Counts.zero : Counts := ⟨Eight.all 0, 0, 0⟩

inductive DoorSession where
  | closed | authorised | unauthorised
  deriving DecidableEq, Repr

inductive BoxPhase where
  | inPlace | out | exchanged
  deriving DecidableEq, Repr

inductive CollectionKind where
  | none | collection | epochStart
  deriving DecidableEq, Repr

/-- A collection record (R118, R121). -/
structure Collection where
  seq : Nat
  kind : CollectionKind
  epoch : Nat
  time : Stamp
  exchanged : Bool
  sat : Bool
  since : Counts
  doorOpen : Nat
  deriving DecidableEq, Repr

/-- Page B as a COLLECTION item writes it (R118). -/
structure PageB where
  base : Counts
  epoch : Nat
  seq : Nat
  deriving DecidableEq, Repr

/-- An item the vault unit holds while its quota is taken (R111, R118). -/
inductive VaultHeld where
  | update
  | collection (r : Collection) (b : PageB)
  deriving DecidableEq, Repr

structure Summary where
  seq : Nat
  value : Nat
  kind : CollectionKind
  deriving DecidableEq, Repr

structure Vault where
  life : Counts
  unconfirmed : Nat
  sat : Bool
  base : Counts
  epoch : Nat
  collSeq : Nat
  windowEnd : Option Nat
  doorOpen : Bool
  boxPresent : Bool
  session : DoorSession
  boxPhase : BoxPhase
  openedAt : Nat
  overtime : Bool
  fill : Nat
  fillWarning : Bool
  held : List VaultHeld
  summary : Option Summary
  deriving DecidableEq, Repr

/-! ### Tamper sensing (07) -/

inductive Level where
  | quiet | near | contact | forced
  deriving DecidableEq, Repr

/-- Channel 0 (R123). -/
structure RefChannel where
  raw : Nat
  f : Nat
  b : Nat
  reseeds : Nat
  deriving DecidableEq, Repr

/-- A channel 1 to 6 (R123): filtered `f`, compensated `fc`, baseline `b`, delta `d`. -/
structure Channel where
  raw : Nat
  f : Nat
  b : Nat
  fc : Nat
  d : Int
  level : Level
  rising : Nat
  falling : Nat
  haltStart : Option Nat
  raised : Bool
  reseeds : Nat
  deriving DecidableEq, Repr

def Channel.zero : Channel := ⟨0, 0, 0, 0, 0, .quiet, 0, 0, none, false, 0⟩

/-- The loiter timer of R136: stopped, running since an instant, or stopped at the loiter time. -/
inductive Loiter where
  | stopped
  | running (since : Nat)
  | reached
  deriving DecidableEq, Repr

inductive Settling where
  | waiting | settling | running
  deriving DecidableEq, Repr

inductive Context where
  | idle | inUse | service
  deriving DecidableEq, Repr

structure Tamper where
  ref : RefChannel
  ch : Six Channel
  loiter : Loiter
  probe : Bool
  settling : Settling
  settleCount : Nat
  /-- The instant of the previous scan, or of the timer's start; the next completes one interval later (R124, R137). -/
  lastScan : Option Nat
  context : Context
  inForce : Context
  settleEnd : Option Nat
  deriving DecidableEq, Repr

/-! ### Incidents and the report dialler (08) -/

inductive ReportState where
  | unreported | marked | reported | reportFailed | notRequired
  deriving DecidableEq, Repr

/-- A slot in use (R140). -/
structure Slot where
  seq : Nat
  severity : Nat
  opened : Stamp
  triggers : Nat
  active : Bool
  quietEnd : Option Nat
  closedPending : Bool
  report : ReportState
  renewed : Bool
  detailCount : Nat
  detailMoney : Nat
  deriving DecidableEq, Repr

structure Incidents where
  slots : PerKind (Option Slot)
  nextSeq : Nat
  nextLog : Nat
  lastLog : Nat
  ackedLog : Nat
  deriving DecidableEq, Repr

inductive DialState where
  | idle | requesting | seizing | dialling | awaitReady | message | awaitKissoff | retryWait
  deriving DecidableEq, Repr

inductive ReportOutcome where
  | none | delivered | failed
  deriving DecidableEq, Repr

inductive FailReason where
  | none | noNumber | noDialtone | lineLost | noReadyTone | noKissoff
  deriving DecidableEq, Repr

structure Dialler where
  st : DialState
  attempts : Nat
  testMark : Bool
  retryEnd : Option Nat
  handEnd : Option Nat
  outcome : ReportOutcome
  reason : FailReason
  delivered : Nat
  /-- Report number and station id that the attempt in progress began with (08, section 8.5). -/
  number : List Nat
  station : List Nat
  /-- The model's own: a qualifying event (R150) has been taken in this step and not yet acted on (log 8). -/
  react : Bool
  deriving DecidableEq, Repr

/-! ### Memory link (09) -/

inductive Writer where
  | none | host | own
  deriving DecidableEq, Repr

inductive LinkStatus where
  | idle | passing | held | vetoed | busError
  deriving DecidableEq, Repr

/-- A host transaction (09, section 9.1). `again`: a repeated start with the memory's device address ends it (see `HostCourse`). -/
inductive HostTxn where
  | write (addr : Nat) (data : List Byte) (ending : WriteEnd)
  | probe (addr : Option Nat) (again : Bool)
  | read (addr : Nat) (n : Nat) (again : Bool)
  | readCurrent (n : Nat) (again : Bool)
  deriving DecidableEq, Repr

/-- What has marked a host transaction for R173. -/
structure Marks where
  vetoed : Bool
  held : Bool
  deriving DecidableEq, Repr

structure Link where
  mem : List Host.Cell
  /-- The tracked pointer; none is "unknown" (R158). -/
  tracked : Option Nat
  hostPtr : Nat
  lastWriter : Writer
  stopTime : Nat
  image : List Byte
  vetoes : Nat
  lastVetoed : Nat
  status : LinkStatus
  memFaults : Nat
  /-- A host transaction held at the acknowledge of its device address (R166, R167). -/
  held : Option HostTxn
  /-- The hold timer (R168): when the hold in progress began, and the sum of the transaction's holds before it, in ms. -/
  holdSince : Nat
  holdSum : Nat
  /-- A host transaction that a repeated start has not ended, with its marks. -/
  openTxn : Option Marks
  hostAck : Bool
  hostData : List Byte
  snapshot : List Byte
  deriving DecidableEq, Repr

inductive Producer where
  | call | vault | request | rating | incident
  deriving DecidableEq, Repr

/-- An item of the own-write queue (R169). -/
inductive Item where
  | record (r : CallRecord)
  | vaultUpdate
  /-- Pages C and B: their 62 bytes before the check word. -/
  | collection (c b : List Byte)
  /-- The response page's 62 bytes before the check word. -/
  | response (body : List Byte)
  | bankSwitch (bank : Bank) (version : Nat)
  /-- The incident record's 30 bytes before the check word. -/
  | incident (logSeq : Nat) (body : List Byte)
  | read (for_ : ReadFor) (page : Nat)
  deriving DecidableEq, Repr

/-- The record writer's transaction in progress (R170). -/
inductive OwnPhase where
  /-- None: the next one has not started. -/
  | idle
  /-- Its device address has met a not-acknowledge and is being polled. -/
  | polling
  /-- A write is being clocked out. -/
  | writing (addr : Nat) (data : List Byte)
  /-- A read of 64 bytes is running. -/
  | reading (addr : Nat)
  /-- A write has been stopped and not yet confirmed. -/
  | awaiting
  deriving DecidableEq, Repr

structure RecordWriter where
  queue : List Item
  phase : OwnPhase
  /-- The head item is in progress. -/
  begun : Bool
  /-- A write of the head item has begun, and with it the item's data were taken (R111, R170). -/
  taken : Bool
  /-- Which transaction of a COLLECTION item: 0 is page C, 1 is page B. -/
  part : Nat
  /-- Failed attempts at the present transaction. -/
  tries : Nat
  /-- The 10 ms limit of R167. -/
  limit : Option Nat
  /-- The model's own: where the write that awaits its confirmation was stored, and what stood there before (log 33). -/
  earlier : Option (Nat × List Byte)
  dropped : Nat
  deriving DecidableEq, Repr

/-! ### Requests and configuration (10) -/

inductive RequestState where
  | idle | working
  deriving DecidableEq, Repr

inductive Reload where
  | none | reading | pending
  deriving DecidableEq, Repr

structure Requests where
  st : RequestState
  latched : List Byte
  lastCode : Nat
  lastTag : Nat
  lastResult : Nat
  lost : Nat
  reload : Reload
  pendCfg : Option Settings
  cfg : Settings
  defaults : Bool
  /-- Bytes of the configuration block read so far, while a reading is in progress. -/
  reading : Option (List Byte)
  /-- The next page of that reading, waiting for the request handler's quota. -/
  wantRead : Option Nat
  heldResponse : Option (List Byte)
  outcome : Finding
  deriving DecidableEq, Repr

/-! ### The machine -/

structure State where
  now : Nat
  clock : Clock
  start : Startup
  pfw : Bool
  pins : Pins
  coin : CoinPath
  acct : Account
  rate : Rating
  pipGen : PipGen
  tariff : Tariff
  num : NumberAnalyser
  call : CallControl
  line : Line
  vault : Vault
  tamper : Tamper
  inc : Incidents
  dial : Dialler
  link : Link
  writer : RecordWriter
  req : Requests
  /-- How many free values have been drawn (log 7). -/
  draws : Nat
  pending : List Instr
  deriving DecidableEq, Repr

/-- Why the machine stops. -/
inductive Fault where
  /-- Raised by a host command that names a word address above 0x7FFF, which the memory of 32,768 bytes does not have.
  Safe: the spec gives such an access no effect (log 9). -/
  | hostAddressOutsideMemory
  deriving DecidableEq, Repr

/-- Why the model gives a command no meaning. -/
inductive Refusal where
  /-- Raised by the dispatch for a command that has no meaning yet. Safe. -/
  | notModelled (mnemonic : String)
  deriving DecidableEq, Repr

def Clock.zero : Clock := ⟨0, 0, false, none⟩

def Startup.zero : Startup := ⟨.resetting, 0, false, none, none, [], [], 0, []⟩

def Pins.zero : Pins := ⟨false, false, false, false, false, false, false, false, 0⟩

def CoinPath.zero : CoinPath :=
  ⟨[], 0, [], 0, none, .idle, none, none, none, none, 0, 0, 0, 0, 0, none, false, 0, none, none, none⟩

def Account.zero : Account := ⟨0, 0, 0, 0, 0, 0, 0, 0, 0, 0, 0, 0, false, false⟩

def Rating.zero : Rating := ⟨none, none, none⟩

def PipGen.zero : PipGen := ⟨.off, false, none⟩

def Tariff.zero : Tariff :=
  ⟨.a, 0, Shadow.empty, 0, .none, .a, 0, none, none, none, false, false, false, Finding.none⟩

def NumberAnalyser.zero : NumberAnalyser := ⟨[], 0, [], none, 0, .none⟩

def Stamp.zero : Stamp := ⟨0, 0, false⟩

def CallControl.zero : CallControl where
  st := .idle
  hook := .on
  waiting := false
  cause := .none
  lastCause := .none
  followOn := false
  grantEnd := none
  depositEnd := none
  answerEnd := none
  assumedEnd := none
  holdEnd := none
  followEnd := none
  holdFlag := false
  reasons := Reasons.empty
  seq := none
  kind := .paid
  number := []
  deposit := 0
  dialTime := Stamp.zero
  answered := false
  answeredAt := none
  duration := 0
  nextSeq := 0
  lastFinal := 65535
  ackedSeq := 65535
  almostFull := false
  unrecorded := 0
  heldRecords := []

/-- R94; the guard timer is started by the end of reset. -/
def Line.zero : Line :=
  ⟨.none, .guarding, false, false, false, [], .tone, .number, 70, 70, .idle, 0, none, false, false, 0, 0, none, none⟩

def Vault.zero : Vault :=
  ⟨Counts.zero, 0, false, Counts.zero, 0, 0, none, false, true, .closed, .inPlace, 0, false, 0, false, [], none⟩

def Tamper.zero : Tamper :=
  ⟨⟨0, 0, 0, 0⟩, Six.all Channel.zero, .stopped, false, .waiting, 0, none, .idle, .idle, none⟩

def Incidents.zero : Incidents := ⟨PerKind.all none, 0, 0, 65535, 65535⟩

def Dialler.zero : Dialler := ⟨.idle, 0, false, none, none, .none, .none, 0, [], [], false⟩

def Link.zero : Link :=
  ⟨[], none, 0, .none, 0, List.replicate 64 0, 0, 0, .idle, 0, none, 0, 0, none, false, [], []⟩

def RecordWriter.zero : RecordWriter := ⟨[], .idle, false, false, 0, 0, none, none, 0⟩

def Requests.zero : Requests :=
  ⟨.idle, [], 0, 0, 0, 0, .none, none, Settings.default, true, none, none, none, Finding.none⟩

/-- The machine after power-on reset, at the end of that reset (R181): the 16 ms of RESETTING and the line's guard of
1,000 ms run. Values that the spec does not state are those of log 3, 4 and 6. -/
def State.reset : State where
  now := 0
  clock := Clock.zero
  start := { Startup.zero with resettingEnd := some 16 }
  pfw := false
  pins := Pins.zero
  coin := CoinPath.zero
  acct := Account.zero
  rate := Rating.zero
  pipGen := PipGen.zero
  tariff := Tariff.zero
  num := NumberAnalyser.zero
  call := CallControl.zero
  line := { Line.zero with guardEnd := some 1000 }
  vault := Vault.zero
  tamper := Tamper.zero
  inc := Incidents.zero
  dial := Dialler.zero
  link := Link.zero
  writer := RecordWriter.zero
  req := Requests.zero
  draws := 0
  pending := []

end Sys2Proof.Machine
end

