-- ==== Sys2Proof/Machine/Ops.lean ====
section
/-!
DEFINITION. Named operations: one update per block of the state, the internal time base, counters and sequences (00,
section 6.4), the bytes of the serial memory, time stamps, and the block-reason set.
-/

namespace Sys2Proof.Machine

/-! ### One update per block -/

def State.onClock (s : State) (f : Clock → Clock) : State := { s with clock := f s.clock }

def State.onStart (s : State) (f : Startup → Startup) : State := { s with start := f s.start }

def State.onPins (s : State) (f : Pins → Pins) : State := { s with pins := f s.pins }

def State.onCoin (s : State) (f : CoinPath → CoinPath) : State := { s with coin := f s.coin }

def State.onAcct (s : State) (f : Account → Account) : State := { s with acct := f s.acct }

def State.onRate (s : State) (f : Rating → Rating) : State := { s with rate := f s.rate }

def State.onPipGen (s : State) (f : PipGen → PipGen) : State := { s with pipGen := f s.pipGen }

def State.onTariff (s : State) (f : Tariff → Tariff) : State := { s with tariff := f s.tariff }

def State.onNum (s : State) (f : NumberAnalyser → NumberAnalyser) : State := { s with num := f s.num }

def State.onCall (s : State) (f : CallControl → CallControl) : State := { s with call := f s.call }

def State.onLine (s : State) (f : Line → Line) : State := { s with line := f s.line }

def State.onVault (s : State) (f : Vault → Vault) : State := { s with vault := f s.vault }

def State.onTamper (s : State) (f : Tamper → Tamper) : State := { s with tamper := f s.tamper }

def State.onInc (s : State) (f : Incidents → Incidents) : State := { s with inc := f s.inc }

def State.onDial (s : State) (f : Dialler → Dialler) : State := { s with dial := f s.dial }

def State.onLink (s : State) (f : Link → Link) : State := { s with link := f s.link }

def State.onWriter (s : State) (f : RecordWriter → RecordWriter) : State := { s with writer := f s.writer }

def State.onReq (s : State) (f : Requests → Requests) : State := { s with req := f s.req }

/-! ### Time (00, section 6.3; log 2) -/

/-- The time base stands at instant `t` or later: what is taken when a timer that ends at `t` runs out. -/
def State.reach (s : State) (t : Nat) : State := { s with now := max s.now t }

/-- A timer expiry: with the timer stopped nothing runs out and nothing changes. -/
def onExpiry (timer : Option Nat) (s : State) (f : State → State) : State :=
  match timer with
  | none => s
  | some t => f (s.reach t)

/-- While the RST pin is held the part stays in reset, and an event finds nothing that acts on it (10, section 10.5). -/
def outOfReset (s : State) (f : State → State) : State := if s.start.rstHeld then s else f s

/-- Whole seconds between two instants, truncated (00, section 6.3). -/
def seconds (since until_ : Nat) : Nat := (until_ - since) / 1000

/-! ### Counts and sequences (00, section 6.4) -/

/-- One more, saturating at `top`. -/
def bump (top n : Nat) : Nat := if n < top then n + 1 else n

/-- A sum, saturating at `top`. -/
def satAdd (top a b : Nat) : Nat := if a + b ≤ top then a + b else top

/-- The sequence after `n`, 16-bit wrapping. -/
def next16 (n : Nat) : Nat := (n + 1) % 65536

/-- The number after `n`, wrapping from 255 to 0. -/
def next8 (n : Nat) : Nat := (n + 1) % 256

/-- (a - b) modulo 65,536. -/
def gap16 (a b : Nat) : Nat := (a + (65536 - b % 65536)) % 65536

/-- Sequence a is newer than sequence b. -/
def newer (a b : Nat) : Bool := 1 ≤ gap16 a b && gap16 a b ≤ 32767

/-! ### The serial memory (09, section 9.1) -/

/-- What an unlisted address reads as (log 3). -/
def blankByte : Byte := 255#8

/-- The number of bytes of the memory. -/
def memorySize : Nat := 32768

/-- The byte at address `a`. -/
def memRead : List Host.Cell → Nat → Byte
  | [], _ => blankByte
  | (k, v) :: rest, a => if a < k then blankByte else if a = k then v else memRead rest a

/-- The cells with the byte at `a` set to `v`, in canonical form. -/
def memWrite : List Host.Cell → Nat → Byte → List Host.Cell
  | [], a, v => if v = blankByte then [] else [(a, v)]
  | (k, w) :: rest, a, v =>
    if a < k then (if v = blankByte then (k, w) :: rest else (a, v) :: (k, w) :: rest)
    else if a = k then (if v = blankByte then rest else (a, v) :: rest)
    else (k, w) :: memWrite rest a v

/-- Every address of the list is above `low`, addresses rise strictly, and no entry is what an unlisted address reads. -/
def memAbove : Nat → List Host.Cell → Bool
  | _, [] => true
  | low, (k, v) :: rest => low ≤ k && (v ≠ blankByte) && memAbove (k + 1) rest

/-- The canonical form, with every listed address below the memory's size. -/
def memWf (m : List Host.Cell) : Bool := memAbove 0 m && m.all (fun c => c.1 < memorySize)

/-- The address `i` bytes on from `a` within the page of `a`, as a write wraps (R159). -/
def pageWrap (a i : Nat) : Nat := a / 64 * 64 + (a % 64 + i) % 64

/-- `data` stored from `a`, wrapping within its page. -/
def storePage (m : List Host.Cell) (a : Nat) : List Byte → Nat → List Host.Cell
  | [], _ => m
  | v :: rest, i => storePage (memWrite m (pageWrap a i) v) a rest (i + 1)

/-- A write of `data` from `a` in the memory. -/
def memStore (m : List Host.Cell) (a : Nat) (data : List Byte) : List Host.Cell := storePage m a data 0

/-- `n` bytes from address `a` onward, wrapping at the end of the memory. -/
def memLoad (m : List Host.Cell) (a : Nat) : Nat → List Byte
  | 0 => []
  | n + 1 => memRead m (a % memorySize) :: memLoad m (a + 1) n

/-- The 64 bytes of page `p`. -/
def pageBytes (m : List Host.Cell) (p : Nat) : List Byte := memLoad m (64 * p) 64

/-! ### Stamps, reasons -/

/-- The time as records carry it: both parts 0 when the set flag is clear (R180). -/
def State.stamp (s : State) : Stamp :=
  if s.clock.isSet then ⟨s.clock.day, s.clock.sec, true⟩ else Stamp.zero

/-- The block reason is present (R83). -/
def State.blocked (s : State) (r : BlockReason) : Bool := s.call.reasons.has r

/-- A reason raised: a reason that is present leaves the set unchanged (R83). -/
def raiseReason (r : BlockReason) (s : State) : State :=
  s.onCall fun c => { c with reasons := c.reasons.put r true }

/-- A reason removed: clearing a reason that is absent leaves the set unchanged (R83). -/
def dropReason (r : BlockReason) (s : State) : State :=
  s.onCall fun c => { c with reasons := c.reasons.put r false }

end Sys2Proof.Machine
end

