-- ==== Sys2Proof/Machine/Operands.lean ====
section
/-!
DEFINITION. The forms in which bytes carry operands (11): binary numbers, packed decimal, digit strings; and from them the
configuration block, the tariff banks, the vault pages and the ring and log records as the PL-204 reads and checks them.
-/

namespace Sys2Proof.Machine

/-! ### Encodings common to all formats (R184) -/

def byteAt (l : List Byte) (i : Nat) : Nat := (l.getD i 0).toNat

/-- Binary numbers are high byte first. -/
def be2 (l : List Byte) (i : Nat) : Nat := byteAt l i * 256 + byteAt l (i + 1)

def be3 (l : List Byte) (i : Nat) : Nat := be2 l i * 256 + byteAt l (i + 2)

def be4 (l : List Byte) (i : Nat) : Nat := be3 l i * 256 + byteAt l (i + 3)

/-- The `i`-th 4-bit code of codes packed two to a byte from offset `off`, the earlier in the high half. -/
def codeAt (l : List Byte) (off i : Nat) : Nat :=
  if i % 2 = 0 then byteAt l (off + i / 2) / 16 else byteAt l (off + i / 2) % 16

def codes (l : List Byte) (off n : Nat) : List Nat := (List.range n).map (codeAt l off)

/-- A digit string: a length byte, then the codes. -/
def digitString (l : List Byte) (off : Nat) : List Nat := codes l (off + 1) (byteAt l off)

/-- Every digit of the packed decimal field of `n` digits at `off` is 0 to 9. -/
def decimalOk (l : List Byte) (off n : Nat) : Bool := (codes l off n).all (· ≤ 9)

/-- The value of the packed decimal field of `n` digits at `off`. -/
def decimalVal (l : List Byte) (off n : Nat) : Nat := (codes l off n).foldl (fun v d => v * 10 + d) 0

/-- The sum of bytes modulo 65,536 (00, section 6.5). -/
def byteSum (l : List Byte) : Nat := l.foldl (fun v b => v + b.toNat) 0 % 65536

/-- A check of a validation table with the finding it reports when it fails. -/
abbrev Checked := Bool × Finding

def within (lo x hi : Nat) : Bool := lo ≤ x && x ≤ hi

/-- The finding of the first check that fails. -/
def firstFail : List Checked → Option Finding
  | [] => none
  | (ok, f) :: rest => if ok then firstFail rest else some f

/-! ### Configuration block (R178; 11, section 11.4) -/

def digitsOk (l : List Byte) (off lo hi top : Nat) : Bool :=
  within lo (byteAt l off) hi && (digitString l off).all (· ≤ top)

def armOf : Nat → ArmLevel
  | 1 => .contact
  | 2 => .forced
  | _ => .none

def thresholdsAt (c : List Byte) (i : Nat) : Thresholds :=
  ⟨be2 c (0x4B + 6 * i), be2 c (0x4D + 6 * i), be2 c (0x4F + 6 * i)⟩

def thresholdsOk (t : Thresholds) : Bool :=
  within 1 t.near 4095 && within 1 t.contact 4095 && within 1 t.forced 4095 && t.near < t.contact && t.contact < t.forced

def armRowAt (c : List Byte) (i : Nat) : ArmRow :=
  ⟨armOf (byteAt c (0x6F + 3 * i)), armOf (byteAt c (0x70 + 3 * i)), armOf (byteAt c (0x71 + 3 * i))⟩

/-- The checks of R178 in their order, over the 192 bytes of the block. Classes, channels and kinds are reported by their
numbers, emergency entries from 0, and an entry count above 4 by 0 (log 13). -/
def configChecks (c : List Byte) : List Checked :=
  ([ (byteSum (c.take 190) == be2 c 190, ⟨2, 0, 2⟩),
    (digitsOk c 0 1 8 9, ⟨3, 0, 3⟩),
    (digitsOk c 5 0 16 11, ⟨4, 0, 3⟩),
    (byteAt c 0x0E ≤ 4, ⟨5, 0, 3⟩) ] : List Checked)
  ++ (List.range (min 4 (byteAt c 0x0E))).map (fun i => ((digitsOk c (0x0F + 5 * i) 1 8 9, ⟨5, i, 3⟩) : Checked))
  ++ (List.range 8).map (fun i => ((decimalOk c (0x23 + 2 * i) 4, ⟨6, i + 1, 4⟩) : Checked))
  ++ ([ (byteAt c 0x33 ≤ 1 && byteAt c 0x34 ≤ 1 && within 40 (byteAt c 0x35) 200 && within 40 (byteAt c 0x36) 200
          && within 1 (byteAt c 0x37) 15 && byteAt c 0x38 ≤ 60 && within 30 (be2 c 0x39) 300, ⟨7, 0, 5⟩),
       (within 40 (byteAt c 0x3B) 200 && within 10 (byteAt c 0x3C) 100 && byteAt c 0x3D ≤ 9, ⟨8, 0, 5⟩),
       (within 100 (be2 c 0x3E) 4000 && byteAt c 0x40 ≤ 99, ⟨9, 0, 5⟩),
       (within 1 (byteAt c 0x41) 64, ⟨10, 0, 5⟩),
       (within 20 (byteAt c 0x42) 200 && byteAt c 0x43 ≤ 3 && within 4 (byteAt c 0x44) 10 && within 4 (byteAt c 0x45) 12
          && byteAt c 0x46 ≤ 8 && within 1 (byteAt c 0x47) 8 && within 10 (be2 c 0x48) 600
          && within 5 (byteAt c 0x4A) 120, ⟨11, 0, 5⟩) ] : List Checked)
  ++ (List.range 6).map (fun i => ((thresholdsOk (thresholdsAt c i), ⟨12, i + 1, 6⟩) : Checked))
  ++ (List.range 6).map (fun i => ((byteAt c (0x6F + 3 * i) ≤ 2 && byteAt c (0x70 + 3 * i) ≤ 2 && byteAt c (0x71 + 3 * i) ≤ 2, ⟨13, i + 1, 5⟩) : Checked))
  ++ (List.range 16).map (fun i => ((byteAt c (0x81 + i) ≤ 3, ⟨14, i + 1, 5⟩) : Checked))

/-- The failing item of a configuration block, or none when it is valid. -/
def checkConfig (c : List Byte) : Option Finding := firstFail (configChecks c)

/-- The settings that a valid block holds. -/
def parseConfig (c : List Byte) : Settings where
  stationId := digitString c 0
  reportNumber := digitString c 5
  emergency := (List.range (byteAt c 0x0E)).map (fun i => digitString c (0x0F + 5 * i))
  values := ⟨decimalVal c 0x23 4, decimalVal c 0x25 4, decimalVal c 0x27 4, decimalVal c 0x29 4,
             decimalVal c 0x2B 4, decimalVal c 0x2D 4, decimalVal c 0x2F 4, decimalVal c 0x31 4⟩
  dialMethod := if byteAt c 0x33 = 0 then .tone else .decadic
  supervision := if byteAt c 0x34 = 0 then .supervised else .unsupervised
  toneOn := byteAt c 0x35
  toneOff := byteAt c 0x36
  dialToneTimeout := byteAt c 0x37
  assumedDelay := byteAt c 0x38
  offhookHold := be2 c 0x39
  pulse := byteAt c 0x3B
  deadTime := byteAt c 0x3C
  almostFull := byteAt c 0x3D
  capacity := be2 c 0x3E
  margin := byteAt c 0x40
  ringMargin := byteAt c 0x41
  scanInterval := byteAt c 0x42
  filterShift := byteAt c 0x43
  baseShift := byteAt c 0x44
  refShift := byteAt c 0x45
  weight := byteAt c 0x46
  debounce := byteAt c 0x47
  haltLimit := be2 c 0x48
  loiter := byteAt c 0x4A
  thresholds := ⟨thresholdsAt c 0, thresholdsAt c 1, thresholdsAt c 2, thresholdsAt c 3, thresholdsAt c 4,
                 thresholdsAt c 5⟩
  arms := ⟨armRowAt c 0, armRowAt c 1, armRowAt c 2, armRowAt c 3, armRowAt c 4, armRowAt c 5⟩
  severity := ⟨byteAt c 0x81, byteAt c 0x82, byteAt c 0x83, byteAt c 0x84, byteAt c 0x85, byteAt c 0x86, byteAt c 0x87,
    byteAt c 0x88, byteAt c 0x89, byteAt c 0x8A, byteAt c 0x8B, byteAt c 0x8C, byteAt c 0x8D, byteAt c 0x8E, byteAt c 0x8F,
    byteAt c 0x90⟩

/-! ### Tariff banks (R49 to R53; 11, section 11.6) -/

/-- The charging increment of a K code. -/
def incrementOf : Nat → Nat
  | 0 => 1
  | 1 => 2
  | 2 => 5
  | 3 => 10
  | 4 => 20
  | 5 => 50
  | _ => 100

/-- The used length of a bank image. -/
def usedLength (t : List Byte) : Nat := 32 + 16 * byteAt t 4 + 12 * byteAt t 5

/-- Pages that hold the used length: its 64th part, rounded up (R51). -/
def pagesOf (len : Nat) : Nat := (len + 63) / 64

/-- Items 1 to 8 of R52; no version is expected at start-up. -/
def headerChecks (t : List Byte) (expected : Option Nat) : List Checked :=
  [ (be2 t 0 == 0x7B1A, ⟨2, 0, 2⟩),
    (match expected with | none => true | some v => be2 t 2 == v, ⟨2, 0, 3⟩),
    (within 1 (byteAt t 4) 32, ⟨2, 0, 4⟩),
    (within 1 (byteAt t 5) 96, ⟨2, 0, 4⟩),
    (be2 t 6 ≤ 1439 && be2 t 8 ≤ 1439, ⟨2, 0, 5⟩),
    (byteAt t 10 ≤ 6, ⟨2, 0, 6⟩),
    (within 1 (byteAt t 11) 3, ⟨2, 0, 7⟩),
    (byteAt t 12 ≤ 30, ⟨2, 0, 8⟩) ]

/-- Items 10 to 13 for the band of index `i`. DESIGN CHOICE: bits 2 and 3 of its byte 0, which no row names, are not examined; the
mode is the high half (log 31). -/
def bandChecks (t : List Byte) (i : Nat) : List Checked :=
  let o := 32 + 16 * i
  [ (byteAt t o / 16 ≤ 1, ⟨4, i, 10⟩),
    (decimalOk t (o + 1) 6 && decimalOk t (o + 6) 6 && decimalOk t (o + 9) 6 && decimalOk t (o + 14) 4
       && codeAt t (o + 6) 0 == 0 && codeAt t (o + 9) 0 == 0, ⟨4, i, 11⟩),
    (within 1 (be2 t (o + 12)) 600, ⟨4, i, 12⟩),
    (be2 t (o + 4) ≤ 600, ⟨4, i, 13⟩) ]

def routeOffset (t : List Byte) (i : Nat) : Nat := 32 + 16 * byteAt t 4 + 12 * i

/-- The digits of a prefix entry: the first prefix-length codes. -/
def routeDigits (t : List Byte) (i : Nat) : List Nat := codes t (routeOffset t i + 1) (byteAt t (routeOffset t i))

/-- Items 14 to 17 for prefix entry `i`. -/
def routeChecks (t : List Byte) (i : Nat) : List Checked :=
  let o := routeOffset t i
  [ (within 1 (byteAt t o) 8, ⟨5, i, 14⟩),
    ((routeDigits t i).all (· ≤ 11), ⟨5, i, 15⟩),
    (byteAt t (o + 5) < byteAt t 4, ⟨5, i, 16⟩),
    (within 1 (byteAt t (o + 7)) 20 && within 1 (byteAt t (o + 6)) 20 && byteAt t (o + 6) ≤ byteAt t (o + 7)
       && byteAt t o ≤ byteAt t (o + 7), ⟨5, i, 14⟩) ]

/-- Item 18 for entry `i`: no entry with a lower index has the same digits. -/
def noEarlierTwin (t : List Byte) (i : Nat) : Bool :=
  (List.range i).all (fun j => routeDigits t j != routeDigits t i)

/-- Items 9 to 18. -/
def bodyChecks (t : List Byte) : List Checked :=
  ([ ((byteSum (t.take (usedLength t)) + (131072 - byteAt t 0x1E - byteAt t 0x1F)) % 65536 == be2 t 0x1E, ⟨3, 0, 9⟩) ] : List Checked)
  ++ (List.range (byteAt t 4)).flatMap (bandChecks t)
  ++ (List.range (byteAt t 5)).flatMap (routeChecks t)
  ++ (List.range (byteAt t 5)).map (fun i => ((noEarlierTwin t i, ⟨5, i, 17⟩) : Checked))

/-- U of R32, before the limit of R33. -/
def unitChargeExact (rate step increment : Nat) : Nat :=
  increment * ((rate * step + (60 * increment - 1)) / (60 * increment))

/-- A unit charge above 99,999 is stored as 99,999 (R33). -/
def clampCharge (u : Nat) : Nat := min u 99999

/-- The band of index `i` as the shadow has it (R53): the mode from the high half of byte 0, its marks from bits 0 and 1
(log 31). -/
def bandAt (t : List Byte) (i : Nat) : Band :=
  let o := 32 + 16 * i
  let k := incrementOf (byteAt t 10)
  let step := be2 t (o + 12)
  let meter := byteAt t o / 16 = 1
  let peak := unitChargeExact (decimalVal t (o + 6) 6) step k
  let off := unitChargeExact (decimalVal t (o + 9) 6) step k
  { mode := if meter then .meter else .localBand
    free := byteAt t o % 2 = 1
    barred := byteAt t o / 2 % 2 = 1
    initial := decimalVal t (o + 1) 6
    delay := be2 t (o + 4)
    uPeak := if meter then 0 else clampCharge peak
    uOff := if meter then 0 else clampCharge off
    pulseValue := if meter then decimalVal t (o + 6) 6 else 0
    stepLen := step
    deposit := decimalVal t (o + 14) 4
    clamped := !meter && (99999 < peak || 99999 < off) }

def routeAt (t : List Byte) (i : Nat) : Route :=
  let o := routeOffset t i
  ⟨routeDigits t i, byteAt t (o + 5), byteAt t (o + 6), byteAt t (o + 7)⟩

/-- The shadow that a bank image builds (R53). -/
def shadowOf (t : List Byte) : Shadow where
  version := be2 t 2
  offStart := be2 t 6
  offEnd := be2 t 8
  increment := incrementOf (byteAt t 10)
  factor := byteAt t 11
  grace := byteAt t 12
  bands := (List.range (byteAt t 4)).map (bandAt t)
  routes := (List.range (byteAt t 5)).map (routeAt t)

/-- The number of CLAMPED bands (R53). -/
def Shadow.clampCount (x : Shadow) : Nat := (x.bands.filter (·.clamped)).length

/-- The set of CLAMPED bands as a 32-bit mask (R54; 11, section 11.3). -/
def Shadow.clampMask (x : Shadow) : Nat :=
  (x.bands.mapIdx (fun i b => if b.clamped then 2 ^ i else 0)).foldl (· + ·) 0

/-! ### Vault pages (R119; 11, section 11.5) -/

/-- The check word of a 64-byte page or record is right. -/
def checkOk (p : List Byte) : Bool := byteSum (p.take 62) == be2 p 62

def countsAt (p : List Byte) (off : Nat) : Eight Nat :=
  ⟨be4 p off, be4 p (off + 4), be4 p (off + 8), be4 p (off + 12), be4 p (off + 16), be4 p (off + 20), be4 p (off + 24),
   be4 p (off + 28)⟩

/-- A page's check word is right and its money field, at `off`, holds no digit above 9 (R186). -/
def vaultPageOk (p : Option (List Byte)) (off : Nat) : Bool :=
  match p with
  | none => false
  | some l => checkOk l && decimalOk l off 8

def pageALife (p : List Byte) : Counts := ⟨countsAt p 0, be4 p 0x20, decimalVal p 0x28 8⟩

def pageBBase (p : List Byte) : Counts := ⟨countsAt p 0, be4 p 0x20, decimalVal p 0x24 8⟩

def pageCSince (p : List Byte) : Counts := ⟨countsAt p 0x0B, be4 p 0x2B, decimalVal p 0x2F 8⟩

/-! ### Ring and log records (R182, R183) -/

/-- A ring record is accepted when its check word is right, its state is OPEN, CLOSED or INTERRUPTED, and its sequence
modulo 128 is the slot. -/
def ringAccepts (slot : Nat) (p : List Byte) : Bool :=
  checkOk p && within 1 (byteAt p 2) 3 && be2 p 0 % 128 == slot

/-- A log record of 32 bytes is accepted when its check word is right, its kind code is 01 to 16, and its log sequence
modulo 64 is the slot. -/
def logAccepts (slot : Nat) (p : List Byte) : Bool :=
  byteSum (p.take 30) == be2 p 30 && within 1 (byteAt p 4) 16 && be2 p 0 % 64 == slot

end Sys2Proof.Machine
end

