-- ==== Sys2Proof/Machine/Formats.lean ====
section
/-!
DEFINITION. The bytes of the records and pages the PL-204 writes (11): encodings, codes of named values, call and incident
records, vault pages and the response page. Bodies are without their check word, which is put on when a write begins (R186).
-/

namespace Sys2Proof.Machine

/-! ### Encodings (R184) -/

def b8 (n : Nat) : Byte := BitVec.ofNat 8 n

/-- `n` in two bytes, high byte first. -/
def w16 (n : Nat) : List Byte := [b8 (n / 256), b8 n]

def w24 (n : Nat) : List Byte := [b8 (n / 65536), b8 (n / 256), b8 n]

def w32 (n : Nat) : List Byte := [b8 (n / 16777216), b8 (n / 65536), b8 (n / 256), b8 n]

/-- Two decimal digits of `n`, tens in the high half. -/
def bcd2 (n : Nat) : Byte := b8 (n / 10 % 10 * 16 + n % 10)

/-- A 6-digit money field. -/
def money6 (n : Nat) : List Byte := [bcd2 (n / 10000), bcd2 (n / 100), bcd2 n]

/-- An 8-digit money field. -/
def money8 (n : Nat) : List Byte := [bcd2 (n / 1000000), bcd2 (n / 10000), bcd2 (n / 100), bcd2 n]

/-- Digit codes packed into `k` bytes, halves past the end written as code 15. -/
def packCodes (l : List Nat) : Nat → List Byte
  | 0 => []
  | k + 1 => b8 (l.headD 15 * 16 + l.tail.headD 15) :: packCodes l.tail.tail k

/-- A digit string: its length, then `k` bytes of codes. -/
def packString (l : List Nat) (k : Nat) : List Byte := b8 l.length :: packCodes l k

def stampBytes (t : Stamp) : List Byte := w16 t.day ++ w24 t.sec

def flagBit (b : Bool) (v : Nat) : Nat := if b then v else 0

/-- `l` cut or filled with zero bytes to length `n`. -/
def fit (n : Nat) (l : List Byte) : List Byte := (l ++ List.replicate n 0).take n

/-- A body with its check word behind it. -/
def withCheck (l : List Byte) : List Byte := l ++ w16 (byteSum l)

/-! ### Codes of named values (11, section 11.7) -/

def Phase.code : Phase → Nat
  | .resetting => 0 | .scanning => 1 | .purging => 2 | .settling => 3 | .ready => 4

def CallState.code : CallState → Nat
  | .idle => 0 | .seizing => 1 | .collect => 2 | .awaitDeposit => 3 | .dialling => 4 | .ringing => 5 | .connected => 6
  | .grace => 7 | .afterCall => 8 | .clearing => 9 | .parked => 10

def LinkStatus.code : LinkStatus → Nat
  | .idle => 0 | .passing => 1 | .held => 2 | .vetoed => 3 | .busError => 4

def EndCause.code : EndCause → Nat
  | .none => 0 | .callerCleared => 1 | .farCleared => 2 | .followOn => 3 | .noAnswer => 4 | .creditExhausted => 5
  | .lineLost => 6 | .noDialtone => 7 | .handsetLost => 8 | .preempted => 9 | .noDeposit => 10 | .powerFail => 11

def BlockReason.code : BlockReason → Nat
  | .slotJam => 0 | .chuteBlocked => 1 | .flapFault => 2 | .vaultFull => 3 | .ringFull => 4 | .tariffFault => 5
  | .accountFault => 6 | .configFault => 7

def Reasons.mask (r : Reasons) : Nat :=
  flagBit r.slotJam 1 + flagBit r.chuteBlocked 2 + flagBit r.flapFault 4 + flagBit r.vaultFull 8 + flagBit r.ringFull 16
    + flagBit r.tariffFault 32 + flagBit r.accountFault 64 + flagBit r.configFault 128

def Refusing.code : Refusing → Nat
  | .none => 0 | .noRoute => 1 | .refusedBarred => 2 | .refusedBlocked => 3 | .undiallable => 4 | .noDeposit => 5

def LineOwner.code : LineOwner → Nat
  | .none => 0 | .call => 1 | .report => 2

def LineState.code : LineState → Nat
  | .released => 0 | .guarding => 1 | .seizing => 2 | .ready => 3 | .sending => 4 | .awaitAnswer => 5 | .answered => 6

def DialState.code : DialState → Nat
  | .idle => 0 | .requesting => 1 | .seizing => 2 | .dialling => 3 | .awaitReady => 4 | .message => 5 | .awaitKissoff => 6
  | .retryWait => 7

def ReportOutcome.code : ReportOutcome → Nat
  | .none => 0 | .delivered => 1 | .failed => 2

def FailReason.code : FailReason → Nat
  | .none => 0 | .noNumber => 1 | .noDialtone => 2 | .lineLost => 3 | .noReadyTone => 4 | .noKissoff => 5

def DoorSession.code : DoorSession → Nat
  | .closed => 0 | .authorised => 1 | .unauthorised => 2

def CollectionKind.code : CollectionKind → Nat
  | .none => 0 | .collection => 1 | .epochStart => 2

def Context.code : Context → Nat
  | .idle => 0 | .inUse => 1 | .service => 2

def Settling.code : Settling → Nat
  | .waiting => 0 | .settling => 1 | .running => 2

def Level.code : Level → Nat
  | .quiet => 0 | .near => 1 | .contact => 2 | .forced => 3

def Bank.code : Bank → Nat
  | .a => 0 | .b => 1

def Activation.code : Activation → Nat
  | .none => 0 | .validating => 1 | .pending => 2

def RequestState.code : RequestState → Nat
  | .idle => 0 | .working => 1

def Reload.code : Reload → Nat
  | .none => 0 | .reading => 1 | .pending => 2

def RecordKind.code : RecordKind → Nat
  | .openRec => 1 | .closed => 2 | .checkpoint => 3 | .rewrite => 3

def RouteKind.code : RouteKind → Nat
  | .paid => 0 | .free => 1 | .emergency => 2

def ReportState.code : ReportState → Nat
  | .unreported => 0 | .marked => 1 | .reported => 2 | .reportFailed => 3 | .notRequired => 4

def kindCode : IncidentKind → Nat
  | .vaultOpen => 1 | .vaultPry => 2 | .vaultOvertime => 3 | .slotJam => 4 | .slotForced => 5 | .slotProbe => 6
  | .stringing => 7 | .chuteBlocked => 8 | .flapFault => 9 | .cordPull => 10 | .cordCut => 11 | .keypadForce => 12
  | .displayStrike => 13 | .housingForce => 14 | .offhookHold => 15 | .accountFault => 16

/-! ### Call record (R87; 11, section 11.6) -/

/-- The money figures a call record carries (R45, R46, R48, R77). -/
structure Figures where
  carryIn : Nat
  inserted : Nat
  charge : Nat
  shortfall : Nat
  consumed : Nat
  forfeited : Nat
  refunded : Nat
  held : Nat
  carryOut : Nat
  units : Nat
  sat : Bool
  deriving DecidableEq, Repr

def callRecordBody (seq : Nat) (kind : RecordKind) (cause : EndCause) (call : CallControl) (ctx : Option RatingContext)
    (duration : Nat) (x : Figures) : List Byte :=
  let bank := (ctx.map (·.bank.code)).getD 0
  let version := (ctx.map (·.version)).getD 0
  let band := (ctx.bind (·.band)).getD 0
  let flags := flagBit call.followOn 1 + flagBit call.answered 2 + flagBit call.dialTime.isSet 4 + flagBit x.sat 8
  fit 62 (w16 seq ++ [b8 kind.code, b8 cause.code, b8 call.kind.code, b8 bank] ++ w16 version ++ [b8 band]
    ++ packString call.number 10 ++ [b8 flags] ++ stampBytes call.dialTime ++ w16 duration
    ++ money6 x.carryIn ++ money6 x.inserted ++ money6 x.charge ++ money6 x.shortfall ++ money6 x.consumed
    ++ money6 x.forfeited ++ money6 x.refunded ++ money6 x.held ++ money6 x.carryOut ++ w16 x.units)

/-- The INTERRUPTED record that start-up makes of an OPEN record: the same sequence, route, number, times and figures,
with state INTERRUPTED and cause POWER_FAIL (R182). Halves of the number past its length are code 15, and the bytes 0x39 to
0x3D, which no item has, are 0 (R184). DESIGN CHOICE: the dial time is written as read also where the flag byte says that the
clock was not set, a length above 20 stands as read, with all 20 codes, and bits 4 to 7 of the flags byte 0x14, which no row
names, stand as read (log 31). -/
def interruptedBody (p : List Byte) : List Byte :=
  fit 62 (p.take 2 ++ [b8 RecordKind.rewrite.code, b8 EndCause.powerFail.code] ++ (p.drop 4).take 6
    ++ packCodes (codes p 0x0A (min 20 (byteAt p 9))) 10 ++ (p.drop 0x14).take 37)

/-- The address of the ring slot of a sequence (R86). -/
def ringAddress (seq : Nat) : Nat := 0x1280 + 64 * (seq % 128)

/-! ### Incident record (R146; 11, section 11.6) -/

def incidentBody (logSeq : Nat) (k : IncidentKind) (x : Slot) (closed : Stamp) : List Byte :=
  fit 30 (w16 logSeq ++ w16 x.seq ++ [b8 (kindCode k), b8 x.severity, b8 x.report.code]
    ++ [b8 (flagBit x.opened.isSet 1 + flagBit closed.isSet 2)] ++ stampBytes x.opened ++ stampBytes closed
    ++ [b8 x.triggers, b8 x.detailCount] ++ money6 x.detailMoney)

/-- The address of a log slot (R146). -/
def logAddress (logSeq : Nat) : Nat := 0x3280 + 32 * (logSeq % 64)

/-! ### Vault pages (11, section 11.5) -/

def countsBytes (c : Counts) : List Byte := (c.coins.toList.flatMap w32) ++ w32 c.stray

def pageABody (v : Vault) : List Byte :=
  fit 62 (countsBytes v.life ++ w32 v.unconfirmed ++ money8 v.life.value ++ w16 v.epoch ++ [b8 (flagBit v.sat 1)])

def pageBBody (x : PageB) : List Byte :=
  fit 62 (countsBytes x.base ++ money8 x.base.value ++ w16 x.epoch ++ w16 x.seq)

def pageCBody (x : Collection) : List Byte :=
  fit 62 (w16 x.seq ++ [b8 x.kind.code] ++ w16 x.epoch ++ stampBytes x.time
    ++ [b8 (flagBit x.time.isSet 1 + flagBit x.exchanged 2 + flagBit x.sat 4)]
    ++ countsBytes x.since ++ money8 x.since.value ++ w16 x.doorOpen)

def pageDBody (bank : Bank) (version : Nat) : List Byte := fit 62 ([b8 bank.code] ++ w16 version)

/-! ### Response page (R175; 11, section 11.3) -/

def responseBody (code tag result : Nat) (detail : List Byte) : List Byte :=
  fit 62 ([b8 code, b8 tag, b8 result] ++ detail)

def findingBytes (f : Finding) : List Byte := [b8 f.area, b8 f.index, b8 f.reason]

end Sys2Proof.Machine
end

