-- ==== Sys2Proof/Machine/Flags.lean ====
section
/-!
DEFINITION. What is read off the state at a moment: the gate rule and its parts, the escrow value and the freeze, the session,
MUTE and PIP, the off-peak period and the low-credit threshold, the ring counts, the context of the tamper sensing unit, the
line marks, and the guard roles. And the refresh of the pins that follow such conditions.
-/

namespace Sys2Proof.Machine

/-! ### Coin path -/

/-- The call states that accept coins (R2, condition 2). -/
def CallState.acceptsCoins : CallState → Bool
  | .collect | .awaitDeposit | .dialling | .ringing | .connected | .grace | .afterCall => true
  | _ => false

/-- A gate-closing reason is present (R2, condition 3; R83). -/
def Reasons.closesGate (r : Reasons) : Bool :=
  r.slotJam || r.chuteBlocked || r.flapFault || r.tariffFault || r.configFault

/-- A routing-blocking reason is present: any of the eight (R83). -/
def Reasons.blocksRouting (r : Reasons) : Bool :=
  r.slotJam || r.chuteBlocked || r.flapFault || r.vaultFull || r.ringFull || r.tariffFault || r.accountFault || r.configFault

/-- The conditions of the gate rule other than its count: 1 to 4 and 6 (R2, R6). -/
def coinsWanted (s : State) : Bool :=
  s.start.phase == .ready && s.call.st.acceptsCoins && !s.call.reasons.closesGate
    && !((s.call.st == .collect || s.call.st == .awaitDeposit) && s.call.reasons.blocksRouting) && !s.pfw

/-- The gate rule (R2). -/
def gateRule (s : State) : Bool :=
  coinsWanted s && s.coin.escrow.length + s.coin.transit.length < 10 - s.req.cfg.almostFull

/-- Frozen escrow (R19). -/
def Reasons.freezes (r : Reasons) : Bool := r.chuteBlocked || r.flapFault

def frozen (s : State) : Bool := s.call.reasons.freezes

/-- The sum of the values of the CREDIT coins: the escrow value (R11). -/
def creditSum (q : List Escrow) : Nat := (q.map fun x => if x.standing = .credit then x.value else 0).sum

/-- Some entry has standing CREDIT. -/
def anyCredit (q : List Escrow) : Bool := q.any (·.standing == .credit)

/-- The coin path stays as reset leaves it, its stray counts at 0 (R24): start-up has not reached PURGING. -/
def coinPathAtRest (s : State) : Bool := s.start.phase == .resetting || s.start.phase == .scanning

/-- The purge has ended: transit entries are formed (R4, R25). -/
def purgeOver (s : State) : Bool := s.start.phase == .settling || s.start.phase == .ready

/-- A session is open: from COLLECT to AFTER_CALL, and in a SEIZING that follows a follow-on (R10). -/
def sessionOpen (c : CallControl) : Bool := c.st.acceptsCoins || (c.st == .seizing && c.followOn)

/-! ### Rating -/

/-- Available credit (R28). -/
def Account.available (a : Account) : Nat := min 999999 (a.b + a.e)

/-- Off-peak applies (R34). -/
def offPeak (x : RatingContext) (c : Clock) : Bool :=
  let m := c.sec / 60
  c.isSet && (if x.offStart < x.offEnd then x.offStart ≤ m && m < x.offEnd
              else if x.offEnd < x.offStart then x.offStart ≤ m || m < x.offEnd else false)

/-- The charge of the next unit (R43): for a LOCAL call that of the period now, for a METER call V. -/
def unitNow (x : RatingContext) (c : Clock) : Nat :=
  match x.mode with
  | .meter => x.pulseValue
  | .localBand => if offPeak x c then x.uOff else x.uPeak

/-- `u` added to itself `w` - 1 times (R26). -/
def timesBySum (u : Nat) : Nat → Nat
  | 0 => 0
  | n + 1 => timesBySum u n + u

/-- The low-credit threshold (R43). -/
def threshold (x : RatingContext) (c : Clock) : Nat := timesBySum (unitNow x c) x.factor

/-- Charging runs (R36, R37): the call is in CONNECTED or GRACE. -/
def CallState.charging (c : CallState) : Bool := c == .connected || c == .grace

/-! ### Call controller -/

/-- Unacknowledged call records U_c (R85). -/
def CallControl.unacked (c : CallControl) : Nat := gap16 c.nextSeq (next16 c.ackedSeq)

/-- The ring almost-full flag (R89). -/
def ringAlmostFull (s : State) : Bool := 128 - s.req.cfg.ringMargin ≤ s.call.unacked

/-- The call may be preempted by a report (R73). -/
def preemptible (c : CallControl) : Bool := c.st == .collect && c.holdFlag

/-! ### Incidents -/

/-- Unacknowledged log records U_i (R147). -/
def Incidents.unacked (i : Incidents) : Nat := gap16 i.nextLog (next16 i.ackedLog)

/-- A slot that waits to be reported (R150). -/
def Slot.reportable (x : Slot) : Bool := x.report == .unreported && 2 ≤ x.severity

def kindSlots (i : Incidents) : List (IncidentKind × Slot) :=
  IncidentKind.list.filterMap fun k => (i.slots.get k).map fun x => (k, x)

/-- A report is due (R150). -/
def reportDue (s : State) : Bool := s.dial.testMark || (kindSlots s.inc).any (·.2.reportable)

/-! ### Line marks (R98) -/

/-- The digits waiting in the key queue, up to the first key that is not a digit 0 to 9. -/
def waitingDigits : List Key → List Nat
  | .digit d :: rest => d.val :: waitingDigits rest
  | _ => []

/-- The EMERGENCY mark of a CALL request. -/
def emergencyMark (s : State) : Bool :=
  s.req.cfg.emergency.any fun e => e != [] && e.isPrefixOf (waitingDigits s.num.keys)

/-- The URGENT mark of a REPORT request. -/
def urgentMark (s : State) : Bool :=
  (kindSlots s.inc).any fun p => p.2.report == .unreported && p.2.severity == 3

/-! ### Tamper context (R133) -/

def formContext (s : State) : Context :=
  if s.vault.windowEnd.isSome then .service
  else if s.call.hook == .off || s.line.owner != .none then .inUse
  else .idle

/-! ### Guard roles (09, section 9.2) -/

inductive Role where
  | passed | vetoed
  deriving DecidableEq, Repr

/-- The role of a bank region (R50): passed only when start-up has set the active bank, the bank is not active, and neither a
validation nor a switch concerns it. -/
def bankRole (t : Tariff) (k : Bank) : Role :=
  if t.bankSet && t.bank != k && !(t.activation != .none && t.pendBank == k) then .passed else .vetoed

/-- The configuration block is being read, or is awaiting its application (R179). -/
def configGuarded (r : Requests) : Bool := r.reading.isSome || r.reload != .none

/-- The guard role of page `p` for host writes. -/
def guardRole (s : State) (p : Nat) : Role :=
  if p = 0 then .vetoed
  else if p = 1 then (if s.req.st = .idle then .passed else .vetoed)
  else if p = 2 then .vetoed
  else if p ≤ 5 then (if configGuarded s.req then .vetoed else .passed)
  else if p ≤ 9 then .vetoed
  else if p ≤ 41 then bankRole s.tariff .a
  else if p ≤ 73 then bankRole s.tariff .b
  else if p ≤ 233 then .vetoed
  else .passed

/-! ### Pins that follow conditions -/

/-- MUTE (R109). -/
def muteRule (l : Line) : Bool := l.owner == .report || (l.owner == .call && l.st == .sending)

/-- The PIP row that applies (R44). -/
def pipModeNow (s : State) : PipMode :=
  if s.call.st == .grace then .fast
  else if s.call.st == .connected && s.acct.lowCredit then .slow
  else .off

/-- The pattern starts with its active 200 ms when its condition begins, and each change between the rows restarts it. -/
def refreshPip (s : State) : State :=
  let m := pipModeNow s
  if m = .off then s.onPipGen fun _ => PipGen.zero
  else if m = s.pipGen.mode then s
  else s.onPipGen fun _ => ⟨m, true, some (s.now + 200)⟩

/-- The PIP output: the pattern, while the owner is CALL and MUTE is inactive (R109). -/
def pipRule (s : State) : Bool := s.pipGen.high && s.line.owner == .call && !muteRule s.line

/-- SLOTGATE, MUTE and PIP brought to their rules (R2, R44, R109). -/
def refreshPins (s : State) : State :=
  let t := refreshPip s
  t.onPins fun p => { p with slotGate := gateRule t, mute := muteRule t.line, pip := pipRule t }

end Sys2Proof.Machine
end

