-- ==== Sys2Proof/Machine/Incident.lean ====
section
/-!
DEFINITION. The incident table (08): open events, renewal, condition ends, detail events. A qualifying event is noted in
the dialler: in IDLE and RETRY_WAIT by `dial.react`, on which it acts when the event's own rule is complete (log 8).
-/

namespace Sys2Proof.Machine

/-- The kinds whose condition ends at once (R141, R143). -/
def endsAtOnce : IncidentKind → Bool
  | .slotJam | .slotForced | .stringing => true
  | _ => false

/-- The quiet time after a condition ends, in ms (08, section 8.1). -/
def quietTime : Nat := 30000

/-- A fresh series of attempts can begin (R150). -/
def DialState.startsSeries (d : DialState) : Bool := d == .idle || d == .retryWait

/-- A qualifying event for the report dialler (R150): in IDLE and RETRY_WAIT a fresh series is to begin, in any other state the
attempt count is 0 at once. -/
def noteQualifying (q : Bool) (s : State) : State :=
  s.onDial fun d =>
    if !q then d else if d.st.startsSeries then { d with react := true } else { d with attempts := 0 }

/-- The slot of a kind replaced. -/
def putSlot (k : IncidentKind) (x : Option Slot) (s : State) : State :=
  s.onInc fun i => { i with slots := i.slots.put k x }

/-- A new slot (R141, "slot empty"), with the condition already ended for the kinds that end at once (R143). -/
def freshSlot (s : State) (k : IncidentKind) (sev : Nat) : Slot where
  seq := s.inc.nextSeq
  severity := sev
  opened := s.stamp
  triggers := 1
  active := !endsAtOnce k
  quietEnd := if endsAtOnce k then some (s.now + quietTime) else none
  closedPending := false
  report := if sev = 1 then .notRequired else .unreported
  renewed := false
  detailCount := 0
  detailMoney := 0

/-- The report state after a repeated open event (R142). -/
def renewReport (x : Slot) : ReportState :=
  if 2 ≤ x.severity ∧ (x.report = .reported ∨ x.report = .reportFailed) then .unreported else x.report

/-- A slot that meets a repeated open event (R141, "slot in use"; R142, R143). -/
def mergedSlot (s : State) (k : IncidentKind) (x : Slot) : Slot :=
  { x with
    triggers := bump 255 x.triggers
    active := !endsAtOnce k
    quietEnd := if endsAtOnce k then some (s.now + quietTime) else none
    closedPending := false
    report := renewReport x
    renewed := x.renewed || (decide (2 ≤ x.severity) && x.report == .marked) }

/-- An open event of kind `k` (R139, R141). A kind with severity 0 is not kept. -/
def openIncident (k : IncidentKind) (s : State) : State :=
  let sev := s.req.cfg.severity.get k
  if sev = 0 then s
  else match s.inc.slots.get k with
    | none =>
      noteQualifying (decide (2 ≤ sev))
        ((putSlot k (some (freshSlot s k sev)) s).onInc fun i => { i with nextSeq := next16 i.nextSeq })
    | some x => noteQualifying (renewReport x != x.report) (putSlot k (some (mergedSlot s k x)) s)

/-- A condition end of kind `k` (R143): only an ACTIVE slot changes. -/
def endCondition (k : IncidentKind) (s : State) : State :=
  match s.inc.slots.get k with
  | none => s
  | some x => if x.active then putSlot k (some { x with active := false, quietEnd := some (s.now + quietTime) }) s else s

/-- A detail event that adds one to the detail count (R145); without a slot it is dropped (R139). -/
def addDetail (k : IncidentKind) (s : State) : State :=
  match s.inc.slots.get k with
  | none => s
  | some x => putSlot k (some { x with detailCount := bump 255 x.detailCount }) s

/-- A detail event that adds to the detail money (R145). -/
def addDetailMoney (k : IncidentKind) (v : Nat) (s : State) : State :=
  match s.inc.slots.get k with
  | none => s
  | some x => putSlot k (some { x with detailMoney := satAdd 999999 x.detailMoney v }) s

/-- The detail event of STRINGING, which opens the incident when its slot is empty (R8, R9). -/
def stringDetail (s : State) : State :=
  match s.inc.slots.get .stringing with
  | none => addDetail .stringing (openIncident .stringing s)
  | some _ => addDetail .stringing s

end Sys2Proof.Machine
end

