-- ==== Sys2Proof/Machine/Queue.lean ====
section
/-!
DEFINITION. The own-write queue and its producers (R169): quotas, the items that a producer holds itself, and the order in
which records join (R88, R93, R111, R118, R175).
-/

namespace Sys2Proof.Machine

def ReadFor.producer : ReadFor → Producer
  | .config => .request
  | .vault => .vault
  | .bank => .rating
  | .ring => .call
  | .log => .incident

def Item.producer : Item → Producer
  | .record _ => .call
  | .vaultUpdate => .vault
  | .collection _ _ => .vault
  | .response _ => .request
  | .bankSwitch _ _ => .rating
  | .incident _ _ => .incident
  | .read f _ => f.producer

def Producer.quota : Producer → Nat
  | .call => 2
  | .vault => 2
  | .request => 1
  | .rating => 1
  | .incident => 6

/-- Items of a producer in the queue, the one in progress included. -/
def itemsOf (p : Producer) (q : List Item) : Nat := (q.filter (·.producer == p)).length

/-- The producer is below its quota. -/
def hasRoom (p : Producer) (s : State) : Bool := itemsOf p s.writer.queue < p.quota

/-- An item joins at the tail. -/
def pushItem (i : Item) (s : State) : State := s.onWriter fun w => { w with queue := w.queue ++ [i] }

/-- An item is handed over within its producer's quota, where it always finds a place (R169). -/
def handOver (i : Item) (s : State) : State := if hasRoom i.producer s then pushItem i s else s

/-- The items that are not in progress: all but a begun head. -/
def RecordWriter.waiting (w : RecordWriter) : List Item := if w.begun then w.queue.tail else w.queue

/-- The queue with its waiting items replaced. -/
def RecordWriter.withWaiting (w : RecordWriter) (l : List Item) : RecordWriter :=
  { w with queue := (if w.begun then w.queue.take 1 else []) ++ l }

/-! ### Call records (R88, R93) -/

/-- A record of call `seq` that a later record of it replaces: its OPEN record or its checkpoint. -/
def isProvisional (seq : Nat) : Item → Bool
  | .record r => r.seq == seq && (r.kind == .openRec || r.kind == .checkpoint)
  | _ => false

def isCheckpoint : Item → Bool
  | .record r => r.kind == .checkpoint
  | _ => false

/-- A record of a call earlier than `seq`. -/
def isEarlier (seq : Nat) : Item → Bool
  | .record r => newer seq r.seq
  | _ => false

/-- `i` placed directly behind the last item that satisfies `p`, at the front if there is none. -/
def placeBehindLast (p : Item → Bool) (i : Item) : List Item → List Item
  | [] => [i]
  | x :: rest => if rest.any p || p x then x :: placeBehindLast p i rest else i :: x :: rest

/-- A CLOSED record put in the place of the same call's provisional record, which waits at the list's item that satisfies
`isProvisional`. In a checkpoint's place it gives way to earlier calls' records that stand behind it. -/
def replaceByClosed (r : CallRecord) : List Item → List Item
  | [] => []
  | x :: rest =>
    if isProvisional r.seq x then
      if isCheckpoint x && rest.any (isEarlier r.seq) then placeBehindLast (isEarlier r.seq) (.record r) rest
      else .record r :: rest
    else x :: replaceByClosed r rest

/-- The held record of the same call replaced by a later one. -/
def replaceHeld (r : CallRecord) (l : List CallRecord) : List CallRecord :=
  l.map fun x => if x.seq = r.seq then r else x

/-- A record joins the queue: a checkpoint ahead of every waiting item, any other at the tail. -/
def joinRecord (r : CallRecord) (s : State) : State :=
  if r.kind = .checkpoint then s.onWriter fun w => w.withWaiting (.record r :: w.waiting) else pushItem (.record r) s

/-- The call controller hands a record to the record writer (R88, R93). DESIGN CHOICE: a record of the same call that is the
item in progress is not replaced, and the later record joins behind it as an item of its own (log 31). -/
def handRecord (r : CallRecord) (s : State) : State :=
  if s.writer.waiting.any (isProvisional r.seq) then
    s.onWriter fun w =>
      if r.kind = .checkpoint then w.withWaiting (.record r :: w.waiting.filter fun x => !isProvisional r.seq x)
      else w.withWaiting (replaceByClosed r w.waiting)
  else if s.call.heldRecords.any (fun x => x.seq == r.seq) then
    s.onCall fun c => { c with heldRecords := replaceHeld r c.heldRecords }
  else if hasRoom .call s && s.call.heldRecords == [] then joinRecord r s
  else s.onCall fun c => { c with heldRecords := c.heldRecords ++ [r] }

/-- One held record joins the queue when a place is free. -/
def releaseHeldRecord (s : State) : State :=
  match s.call.heldRecords with
  | [] => s
  | r :: rest => if hasRoom .call s then joinRecord r (s.onCall fun c => { c with heldRecords := rest }) else s

/-! ### Vault items (R111, R118) -/

def isVaultUpdate : Item → Bool
  | .vaultUpdate => true
  | _ => false

/-- The items whose data have not been taken: all but a head whose write has begun (R170). -/
def RecordWriter.untaken (w : RecordWriter) : List Item := if w.taken then w.queue.tail else w.queue

/-- A VAULT_UPDATE is handed over, merged with one whose write has not begun or one that is held, or held; none while
ACCOUNT_FAULT stands (R111, R120). DESIGN CHOICE: the VAULT_UPDATE of an epoch start (R121) merges as that of a confirmed
collect does (log 31). -/
def handVaultUpdate (s : State) : State :=
  if s.blocked .accountFault then s
  else if s.writer.untaken.any isVaultUpdate || s.vault.held.any (fun h => decide (h = .update)) then s
  else if hasRoom .vault s && s.vault.held == [] then pushItem .vaultUpdate s
  else s.onVault fun v => { v with held := v.held ++ [.update] }

/-- Counts added (R118, R119): the coin counts saturate as binary counts do (00, section 6.4). DESIGN CHOICE: a sum of two
values above 99,999,999, of which the rules do not speak, is 99,999,999, and no flag is set for it (log 31). -/
def Counts.add (x y : Counts) : Counts :=
  ⟨x.coins.zip (satAdd 4294967295) y.coins, satAdd 4294967295 x.stray y.stray, satAdd 99999999 x.value y.value⟩

/-- Two held records as one that still accounts for every coin (R118). DESIGN CHOICE: kind and epoch are those of the later
record, and the box counts as exchanged if it was in either (log 31). -/
def mergeCollections (x y : Collection) : Collection :=
  { y with since := x.since.add y.since, doorOpen := satAdd 65535 x.doorOpen y.doorOpen,
           exchanged := x.exchanged || y.exchanged }

/-- The held list with collection `r` and its page B, merged into a collection that is held already. -/
def holdCollection (r : Collection) (b : PageB) : List VaultHeld → List VaultHeld
  | [] => [.collection r b]
  | .update :: rest => .update :: holdCollection r b rest
  | .collection r' _ :: rest => .collection (mergeCollections r' r) b :: rest

/-- A COLLECTION item is handed over or held; none while ACCOUNT_FAULT stands (R118, R120). -/
def handCollection (r : Collection) (b : PageB) (s : State) : State :=
  if s.blocked .accountFault then s
  else if hasRoom .vault s && s.vault.held == [] then pushItem (.collection (pageCBody r) (pageBBody b)) s
  else s.onVault fun v => { v with held := holdCollection r b v.held }

/-- One held vault item joins the queue when a place is free, in the order they were first held (R111). -/
def releaseHeldVault (s : State) : State :=
  if s.blocked .accountFault then s
  else match s.vault.held with
    | [] => s
    | h :: rest =>
      if hasRoom .vault s then
        pushItem (match h with | .update => .vaultUpdate | .collection r b => .collection (pageCBody r) (pageBBody b))
          (s.onVault fun v => { v with held := rest })
      else s

/-! ### Responses, configuration reads, bank switch, validation reads, start-up reads -/

/-- A RESPONSE is handed over or held (R175). -/
def handResponse (body : List Byte) (s : State) : State :=
  if hasRoom .request s then pushItem (.response body) s
  else s.onReq fun r => { r with heldResponse := some body }

/-- A held response, or else the configuration read that waits, joins the queue (R175). -/
def releaseHeldRequest (s : State) : State :=
  if hasRoom .request s then
    match s.req.heldResponse with
    | some body => pushItem (.response body) (s.onReq fun r => { r with heldResponse := none })
    | none =>
      match s.req.wantRead with
      | some p => pushItem (.read .config p) (s.onReq fun r => { r with wantRead := none })
      | none => s
  else s

/-- The BANK_SWITCH write of the bank in force (R56): while ACCOUNT_FAULT stands, the indicator-unwritten mark instead.
DESIGN CHOICE: one that is held keeps no bank of its own (log 31). -/
def handBankSwitch (s : State) : State :=
  if s.blocked .accountFault then s.onTariff fun t => { t with unwritten := true }
  else if hasRoom .rating s then pushItem (.bankSwitch s.tariff.bank s.tariff.version) s
  else s.onTariff fun t => { t with heldSwitch := true }

/-- A held BANK_SWITCH, or else the validation read that waits, joins the queue (R51, R56). DESIGN CHOICE: the write names the bank
and version in force as it joins (log 31). -/
def releaseHeldRating (s : State) : State :=
  if hasRoom .rating s then
    if s.tariff.heldSwitch then handBankSwitch (s.onTariff fun t => { t with heldSwitch := false })
    else match s.tariff.wantRead with
      | some p => pushItem (.read .bank p) (s.onTariff fun t => { t with wantRead := none })
      | none => s
  else s

/-- The start-up read that waits joins the queue (R181). -/
def releaseStartRead (s : State) : State :=
  match s.start.want with
  | none => s
  | some (f, p) =>
    if hasRoom f.producer s then pushItem (.read f p) (s.onStart fun x => { x with want := none }) else s

/-- Every producer hands over what it holds as far as its quota goes (R169). -/
def releaseHeld (s : State) : State :=
  releaseStartRead (releaseHeldRating (releaseHeldRequest (releaseHeldVault (releaseHeldVault
    (releaseHeldRecord (releaseHeldRecord s))))))

end Sys2Proof.Machine
end

