-- ==== Sys2Proof/Machine/Rating.lean ====
section
/-!
DEFINITION. The rating engine (02): the call account, collect requests and the debit, charging steps and pulses, grace, the
low-credit tests, and the closing of a call's money. The collect request is the coin path's answer (R12).
-/

namespace Sys2Proof.Machine

/-- The largest value of a 6-digit money field. -/
def moneyTop : Nat := 999999

/-! ### Saturating additions to the account (R26, R27) -/

/-- The addition of `v` to a field that holds `x` saturates. -/
def overflows (x v : Nat) : Bool := moneyTop < x + v

def Account.addCharge (v : Nat) (a : Account) : Account :=
  { a with c := satAdd moneyTop a.c v, sat := a.sat || overflows a.c v }

def Account.addOwed (v : Nat) (a : Account) : Account :=
  { a with o := satAdd moneyTop a.o v, sat := a.sat || overflows a.o v }

def Account.addInserted (v : Nat) (a : Account) : Account :=
  { a with inserted := satAdd moneyTop a.inserted v, sat := a.sat || overflows a.inserted v }

def Account.addRefunded (v : Nat) (a : Account) : Account :=
  { a with refunded := satAdd moneyTop a.refunded v, sat := a.sat || overflows a.refunded v }

def Account.addHeld (v : Nat) (a : Account) : Account :=
  { a with held := satAdd moneyTop a.held v, sat := a.sat || overflows a.held v }

def Account.addShortfall (v : Nat) (a : Account) : Account :=
  { a with shortfall := satAdd moneyTop a.shortfall v, sat := a.sat || overflows a.shortfall v }

/-- One charging step or pulse more (R35, R36). -/
def countUnit (s : State) : State := s.onAcct fun a => { a with units := bump 65535 a.units }

/-! ### The account opened, handed over and cleared (R29, R46) -/

def clearAccount (s : State) : State := (s.onAcct fun _ => Account.zero).onRate fun r => { r with ctx := none }

/-- The new call of a follow-on: B and E stay, carry_in takes the old carry_out B + E, every other item 0 or clear. -/
def handOverAccount (s : State) : State :=
  (s.onAcct fun a => { Account.zero with b := a.b, e := a.e, carryIn := satAdd moneyTop a.b a.e }).onRate
    fun r => { r with ctx := none }

/-! ### Money between escrow and account (R12, R30) -/

/-- The oldest HELD CREDIT entry committed: its value, and the queue after (R12). -/
def commitFirst : List Escrow → Option (Nat × List Escrow)
  | [] => none
  | x :: rest =>
    if x.st = .held ∧ x.standing = .credit then
      some (x.value, { x with st := .releasingCollect, standing := .committed } :: rest)
    else (commitFirst rest).map fun p => (p.1, x :: p.2)

/-- A collect request with its effect on the queue and the account: the value moves from E to B. None when the escrow is
frozen or no HELD CREDIT entry exists (R12, R30). -/
def collectRequest (s : State) : Option Nat × State :=
  if frozen s then (none, s)
  else match commitFirst s.coin.escrow with
    | none => (none, s)
    | some (v, q) =>
      (some v, (s.onCoin fun c => { c with escrow := q }).onAcct fun a => { a with e := a.e - v, b := a.b + v })

/-- A confirmed refund (R17, R30). -/
def refund (v : Nat) (s : State) : State := s.onAcct fun a => ({ a with e := a.e - v }).addRefunded v

/-- The value held at the end of a return-all (R30, R45). -/
def holdValue (v : Nat) (s : State) : State := s.onAcct fun a => ({ a with e := a.e - v }).addHeld v

/-! ### Low credit (R43) -/

/-- The setting test, after a debit in CONNECTED. -/
def settingTest (x : RatingContext) (s : State) : State :=
  if s.acct.available < threshold x s.clock then s.onAcct fun a => { a with lowCredit := true } else s

/-- The clearing test, after a coin. -/
def clearingTest (s : State) : State :=
  match s.rate.ctx with
  | none => s
  | some x =>
    if !x.uncharged && threshold x s.clock ≤ s.acct.available then s.onAcct fun a => { a with lowCredit := false } else s

/-! ### The debit (R38, R42) -/

/-- B covers `u`: step 1 of R38. -/
def payFromBanked (u : Nat) (s : State) : State := s.onAcct fun a => ({ a with b := a.b - u }).addCharge u

/-- B is short and no coin can be committed: step 3 of R38, with the entry into GRACE (R40). -/
def enterGrace (u : Nat) (x : RatingContext) (s : State) : State :=
  (((s.onAcct fun a => { (a.addCharge u) with o := u - a.b, b := 0, lowCredit := true }).onRate
    fun r => { r with graceEnd := some (s.now + 1000 * x.grace) })).onCall fun c => { c with st := .grace }

/-- R38: steps 1 and 2 as often as coins can be committed, at most `fuel` times, then step 3. -/
def debitLoop (u : Nat) (x : RatingContext) : Nat → State → State
  | 0, s => if u ≤ s.acct.b then payFromBanked u s else enterGrace u x s
  | fuel + 1, s =>
    if u ≤ s.acct.b then payFromBanked u s
    else match collectRequest s with
      | (none, _) => enterGrace u x s
      | (some _, t) => debitLoop u x fuel t

/-- A charge taken from the account: in CONNECTED by R38 with the setting test of R43, in GRACE by R42. A queue of n entries
answers at most n collect requests. -/
def debit (u : Nat) (x : RatingContext) (s : State) : State :=
  if s.call.st = .grace then s.onAcct fun a => (a.addCharge u).addOwed u
  else settingTest x (debitLoop u x s.coin.escrow.length s)

/-- A charge debited, or nothing for a charge of 0 (R35, R36; log 14). -/
def charge (u : Nat) (x : RatingContext) (s : State) : State := if u = 0 then s else debit u x s

/-- A step of a LOCAL call at this moment: period, debit, unit (R34, R35). -/
def chargeStep (x : RatingContext) (s : State) : State := countUnit (charge (unitNow x s.clock) x s)

/-- A meter pulse charged (R36). -/
def chargePulse (x : RatingContext) (s : State) : State := countUnit (charge x.pulseValue x s)

/-- The kinds of answer (R76). -/
inductive AnswerKind where
  | reversal | assumed | pulse
  deriving DecidableEq, Repr

/-- The initial charge at answer. Of a LOCAL call an I of 0 changes nothing (R35); of a METER call I is debited, and the setting
test made, also if it is 0 (R36, R43; log 14). -/
def chargeInitial (x : RatingContext) (s : State) : State :=
  match x.mode with
  | .meter => debit x.initial x s
  | .localBand => charge x.initial x s

/-- Charging starts at answer (R35, R36); an uncharged call is debited nothing (R31). -/
def startCharging (kind : AnswerKind) (s : State) : State :=
  match s.rate.ctx with
  | none => s
  | some x =>
    if x.uncharged then s
    else
      let t := chargeInitial x s
      match x.mode with
      | .meter => if kind = .pulse then chargePulse x t else t
      | .localBand =>
        if x.delay = 0 then
          (chargeStep x t).onRate fun r => { r with nextStep := some (s.now + 1000 * x.stepLen) }
        else t.onRate fun r => { r with nextStep := some (s.now + 1000 * x.delay) }

/-! ### The end of charging and the closing of the money (R37, R42, R45, R46, R48) -/

/-- Charging ends: both timers stop, O goes to shortfall, the low-credit flag is cleared (R37, R42, R43). -/
def endCharging (s : State) : State :=
  (s.onAcct fun a => { (a.addShortfall a.o) with o := 0, lowCredit := false }).onRate
    fun r => { r with nextStep := none, graceEnd := none }

/-- B is forfeited (R45, step 2). -/
def forfeit (s : State) : State := s.onAcct fun a => { a with forfeited := a.b, b := 0 }

/-- Consumed = C - shortfall (R47). -/
def Account.consumed (a : Account) : Nat := a.c - a.shortfall

/-- The closing figures of a clearing (R45). -/
def closingFigures (a : Account) : Figures :=
  ⟨a.carryIn, a.inserted, a.c, a.shortfall, a.consumed, a.forfeited, a.refunded, a.held, a.carryOut, a.units, a.sat⟩

/-- The closing figures of a follow-on: carry_out is B + E, nothing forfeited, refunded or held (R46). -/
def followOnFigures (a : Account) : Figures :=
  ⟨a.carryIn, a.inserted, a.c, a.shortfall, a.consumed, 0, 0, 0, satAdd moneyTop a.b a.e, a.units, a.sat⟩

/-- The figures of an OPEN record: those at answer (R87). -/
def openFigures (a : Account) : Figures := ⟨a.carryIn, a.inserted, a.c, 0, 0, 0, 0, 0, 0, a.units, a.sat⟩

/-- The figures of a checkpoint (R48). -/
def checkpointFigures (a : Account) : Figures :=
  ⟨a.carryIn, a.inserted, a.c, a.o, a.c - a.o, 0, a.refunded, satAdd moneyTop a.b a.e, 0, a.units, a.sat⟩

end Sys2Proof.Machine
end

