-- ==== Sys2Proof/Machine/Coin.lean ====
section
/-!
DEFINITION. The coin path's own operations (01): the transit table, the escrow queue, the flap driver, the freeze and the
return-all as far as they concern the coin path alone.
-/

namespace Sys2Proof.Machine

/-- The fixed times of 01, section 1.1, in ms. -/
def enteredTime : Nat := 1000
def transitTime : Nat := 800
def passageTime : Nat := 250
def windowTime : Nat := 500
def acceptTime : Nat := 40
def purgeTail : Nat := 800

/-! ### Transit table -/

/-- The first entry that satisfies `p` changed by `f`. -/
def changeFirst (p : Transit → Bool) (f : Transit → Transit) : List Transit → List Transit
  | [] => []
  | x :: rest => if p x then f x :: rest else x :: changeFirst p f rest

/-- The first entry that satisfies `p` removed. -/
def removeFirst (p : Transit → Bool) : List Transit → List Transit
  | [] => []
  | x :: rest => if p x then rest else x :: removeFirst p rest

def isEntered (x : Transit) : Bool := x.st == .entered

/-- A coin on its way to the cup (R20). -/
def isReturning (x : Transit) : Bool := x.st == .rejected || x.st == .diverted

/-- An ACCEPTED entry whose passage has not begun (R8). -/
def isComing (x : Transit) : Bool := x.st == .accepted && !x.atSensor

/-- A strobe's class is decided ACCEPT (R6), in the state before the decision. -/
def acceptsClass (s : State) (cls : Fin 8) : Bool :=
  s.req.cfg.values.get cls != 0
    && s.coin.escrow.length + (s.coin.transit.filter (·.st == .accepted)).length < 10
    && coinsWanted s

/-! ### Escrow queue -/

/-- An entry joins at the tail with the next escrow sequence (R8, R9, R11). -/
def appendEscrow (cls : Option (Fin 8)) (value : Nat) (st : EscrowState) (standing : Standing) (s : State) : State :=
  s.onCoin fun c =>
    { c with escrow := c.escrow ++ [⟨c.nextEscrow, cls, value, st, standing⟩], nextEscrow := next8 c.nextEscrow }

/-- A stray escrow entry, or the detail count of STRINGING when the rail is full (R9). -/
def appendStray (s : State) : State :=
  if s.coin.escrow.length < 10 then appendEscrow none 0 .releasingCollect .committed s else stringDetail s

/-- The HELD CREDIT entries marked RELEASING_RETURN (R13). -/
def markReturns (q : List Escrow) : List Escrow :=
  q.map fun x => if x.st = .held ∧ x.standing = .credit then { x with st := .releasingReturn } else x

def unmarkReturn (x : Escrow) : Escrow := if x.st = .releasingReturn then { x with st := .held } else x

/-- The pending returns cancelled at a freeze: every RELEASING_RETURN entry but one in flight goes back to HELD (R19). -/
def cancelReturns (c : CoinPath) : List Escrow :=
  match c.escrow with
  | [] => []
  | x :: rest => (if c.inFlight.isSome then x else unmarkReturn x) :: rest.map unmarkReturn

def holdOver (x : Escrow) : Escrow :=
  if x.standing = .credit then { x with st := .held, standing := .heldOver } else x

/-- CREDIT entries become HELD_OVER, and HELD unless their return is in flight (R19, step 1). -/
def holdCredits (c : CoinPath) : List Escrow :=
  match c.escrow with
  | [] => []
  | x :: rest =>
    (if c.inFlight.isSome && x.standing == .credit then { x with standing := .heldOver } else holdOver x)
      :: rest.map holdOver

/-- The releases that unfreezing assigns to HELD entries: by CLEAR_BLOCK(CHUTE_BLOCKED), or by CLEAR_BLOCK(FLAP_FAULT)
(the table of R22). -/
def assignRelease (byChute : Bool) (x : Escrow) : Escrow :=
  if x.st = .held then
    match x.standing with
    | .committed => { x with st := .releasingCollect }
    | .heldOver => { x with st := if byChute then .releasingReturn else .releasingCollect }
    | .credit => x
  else x

/-! ### Flap driver (R14, R15) -/

def coilOf : EscrowState → Option Coil
  | .held => none
  | .releasingCollect => some .collect
  | .releasingReturn => some .return_

/-- The coil outputs (R15): one coil on, or none. -/
def driveCoil (x : Option Coil) (s : State) : State :=
  s.onPins fun p => { p with flapC := x == some .collect, flapR := x == some .return_ }

/-- The coil that a release may start with now: every condition of R14 holds. -/
def releaseReady (s : State) : Option Coil :=
  match s.coin.escrow with
  | [] => none
  | x :: _ =>
    if s.coin.inFlight.isNone && !frozen s && !s.pfw && s.coin.deadEnd.isNone && s.coin.flap == .idle
        && s.start.phase != .purging
    then coilOf x.st else none

/-- The release in flight has been confirmed: in PULSE the pulse goes on, in WINDOW the driver settles for what remains of
the dead time (R15). The head entry leaves the queue (R16, R17) and the failed-return count is cleared (R21). -/
def confirmRelease (s : State) : State :=
  s.onCoin fun c =>
    { c with
      escrow := c.escrow.tail
      inFlight := none
      failedReturns := 0
      flap := if c.flap = .window then (if c.deadEnd.isNone then .idle else .settle) else c.flap }

/-- The first window has run out: the same coil again (R18). -/
def retryRelease (r : InFlight) (s : State) : State :=
  driveCoil (some r.coil)
    (s.onCoin fun c =>
      { c with
        flap := .pulse
        inFlight := some { r with retry := true, windowEnd := s.now + windowTime }
        pulseEnd := some (s.now + r.pulse)
        deadEnd := none })

/-- The second window has run out: the entry returns to HELD with its standing unchanged (R18). -/
def abandonRelease (s : State) : State :=
  driveCoil none
    (s.onCoin fun c =>
      { c with
        flap := .idle
        inFlight := none
        pulseEnd := none
        deadEnd := none
        escrow := match c.escrow with | [] => [] | x :: rest => { x with st := .held } :: rest })

/-! ### The purge (R25) -/

/-- A purge pulse of the RETURN coil begins. DESIGN CHOICE (log 31): the flap driver's state stays IDLE during the pulse,
though R15 gives IDLE both coils de-energised. -/
def startPurgePulse (s : State) : State :=
  driveCoil (some .return_)
    (s.onCoin fun c =>
      { c with purgeStarted := true, purgeNext := none, purgePulseEnd := some (s.now + s.req.cfg.pulse) })

end Sys2Proof.Machine
end

