-- ==== Sys2Proof/Machine/Vault.lean ====
section
/-!
DEFINITION. The vault accounting unit (06): confirmed coins, the fill, the collection and the epoch start, and the service
window.
-/

namespace Sys2Proof.Machine

/-- A lifetime figure less its baseline. Below its baseline the spec states no result: a free value (log 7). -/
def sinceCount (life base : Nat) : Nat := if base ≤ life then life - base else Config.belowBaseline life base

/-- What has come in since the baseline was taken (R112, R118). -/
def Vault.since (v : Vault) : Counts :=
  ⟨v.life.coins.zip sinceCount v.base.coins, sinceCount v.life.stray v.base.stray, sinceCount v.life.value v.base.value⟩

/-- The number of objects in counts: coins of every class and strays. -/
def Counts.objects (c : Counts) : Nat := c.coins.toList.sum + c.stray

/-- The fill recomputed with its two tests (R112). -/
def recomputeFill (s : State) : State :=
  let f := s.vault.since.objects
  let t := s.onVault fun v => { v with fill := f, fillWarning := decide (s.req.cfg.capacity - s.req.cfg.margin ≤ f) }
  if s.req.cfg.capacity ≤ f then raiseReason .vaultFull t else t

/-- A coin or stray added to the lifetime counts (R111). -/
def countCoin (cls : Option (Fin 8)) (value : Nat) (retry : Bool) (v : Vault) : Vault :=
  let u := { v with unconfirmed := if retry then bump 4294967295 v.unconfirmed else v.unconfirmed }
  match cls with
  | none => { u with life := { u.life with stray := bump 4294967295 u.life.stray } }
  | some k =>
    { u with
      life := { u.life with
        coins := u.life.coins.put k (bump 4294967295 (u.life.coins.get k))
        value := satAdd 99999999 u.life.value value }
      sat := u.sat || decide (99999999 < u.life.value + value) }

/-- A confirmed collect reaches the vault accounting unit (R111). -/
def confirmCoin (x : Escrow) (retry : Bool) (s : State) : State :=
  handVaultUpdate (recomputeFill (s.onVault (countCoin x.cls x.value retry)))

/-- The record of a collection or an epoch start formed from the present figures, with sequence and epoch as they now
stand (R118, R121). -/
def formCollection (s : State) (kind : CollectionKind) (opened : Nat) (exchanged : Bool) : Collection where
  seq := s.vault.collSeq
  kind := kind
  epoch := s.vault.epoch
  time := s.stamp
  exchanged := exchanged
  sat := s.vault.sat
  since := s.vault.since
  doorOpen := min 65535 opened

/-- Page B as it stands now. -/
def pageBNow (v : Vault) : PageB := ⟨v.base, v.epoch, v.collSeq⟩

def setSummary (r : Collection) (s : State) : State :=
  s.onVault fun v => { v with summary := some ⟨r.seq, r.since.value, r.kind⟩ }

/-- A collection completed at the door close (R118). -/
def completeCollection (s : State) : State :=
  let t := s.onVault fun v => { v with collSeq := next16 v.collSeq }
  let r := formCollection t .collection (seconds s.vault.openedAt s.now) true
  let u := recomputeFill (dropReason .vaultFull (t.onVault fun v => { v with base := v.life }))
  handCollection r (pageBNow u.vault) (setSummary r u)

/-- The service window closes; an AUTHORISED session runs over (R116). -/
def closeWindow (s : State) : State :=
  let t := s.onVault fun v => { v with windowEnd := none }
  if s.vault.session = .authorised then
    openIncident .vaultOvertime (t.onVault fun v => { v with overtime := true })
  else t

/-- The end of a VAULT_OVERTIME condition that was opened for the session (R113, R117). -/
def endOvertime (s : State) : State :=
  if s.vault.overtime then endCondition .vaultOvertime (s.onVault fun v => { v with overtime := false }) else s

/-- The window opened, or its expiry replaced (R113). -/
def openWindow (minutes : Nat) (s : State) : State :=
  let t := s.onVault fun v => { v with windowEnd := some (s.now + 60000 * minutes) }
  if s.vault.session = .authorised then endOvertime t else t

/-- An UNAUTHORISED session begins (R114). -/
def beginUnauthorised (s : State) : State :=
  openIncident .vaultOpen (s.onVault fun v => { v with session := .unauthorised })

end Sys2Proof.Machine
end

