-- ==== Sys2Proof/Machine/Tamper.lean ====
section
/-!
DEFINITION. The tamper sensing unit (07): the four stages of a scan, the levels, reseeding, the arm checks, the loiter timer,
start-up settling, the context and the context in force, and new settings.
-/

namespace Sys2Proof.Machine

/-- Context settling, in ms (07, section 7.1). -/
def settlingTime : Nat := 5000

/-- The largest count of a channel. -/
def countTop : Nat := 65535

/-! ### Stages 1 to 3 (R125 to R127) -/

/-- `f` moved toward `r` by their difference shifted right by `k`, rounding toward minus infinity (R125, R127). -/
def approach (k r f : Nat) : Nat := ((f : Int) + ((r : Int) - (f : Int)) / (2 ^ k : Int)).toNat

/-- The compensated value: `f` less `g` times `w` over 8, truncated toward zero, kept within a count (R126). -/
def compensate (w f : Nat) (g : Int) : Nat :=
  min countTop ((f : Int) - Int.tdiv (g * (w : Int)) 8).toNat

/-! ### Stage 4 (R128 to R130) -/

/-- The entry threshold of the level above `l`. -/
def entryAbove (t : Thresholds) : Level → Nat
  | .quiet => t.near
  | .near => t.contact
  | .contact => t.forced
  | .forced => t.forced

/-- exit(T) of R129. -/
def exitOf (t : Nat) : Nat := t - t / 8

/-- The exit threshold of `l`. -/
def exitThreshold (t : Thresholds) : Level → Nat
  | .quiet => 0
  | .near => exitOf t.near
  | .contact => exitOf t.contact
  | .forced => exitOf t.forced

def Level.up : Level → Level
  | .quiet => .near
  | .near => .contact
  | .contact => .forced
  | .forced => .forced

def Level.down : Level → Level
  | .quiet => .quiet
  | .near => .quiet
  | .contact => .near
  | .forced => .contact

/-- One step of a channel's level machine, with delta `d` at instant `now`. -/
def levelStep (n now : Nat) (t : Thresholds) (d : Int) (x : Channel) : Channel :=
  let rising := if x.level ≠ .forced ∧ (entryAbove t x.level : Int) ≤ d then x.rising + 1 else 0
  let falling := if x.level ≠ .quiet ∧ d < (exitThreshold t x.level : Int) then x.falling + 1 else 0
  if x.level ≠ .forced ∧ n ≤ rising then
    { x with d := d, level := x.level.up, rising := 0, falling := 0,
             haltStart := if x.level = .quiet then some now else x.haltStart }
  else if x.level ≠ .quiet ∧ n ≤ falling then
    { x with d := d, level := x.level.down, rising := 0, falling := 0,
             haltStart := if x.level.down = .quiet then none else x.haltStart }
  else { x with d := d, rising := rising, falling := falling }

/-- A channel through stages 1 to 4 of a scan, for the reference drift `g`. -/
def scanChannel (cfg : Settings) (now : Nat) (g : Int) (t : Thresholds) (raw : Nat) (x : Channel) : Channel :=
  let f := approach cfg.filterShift raw x.f
  let fc := compensate cfg.weight f g
  let b := if x.level = .quiet then approach cfg.baseShift fc x.b else x.b
  levelStep cfg.debounce now t ((fc : Int) - (b : Int)) { x with raw := raw, f := f, fc := fc, b := b }

/-! ### Arm checks and the loiter timer (R135, R136) -/

def Level.rank : Level → Nat
  | .quiet => 0 | .near => 1 | .contact => 2 | .forced => 3

/-- The level reaches the arm level; NONE is reached by no level. -/
def Level.reaches (l : Level) : ArmLevel → Bool
  | .none => false
  | .contact => 2 ≤ l.rank
  | .forced => 3 ≤ l.rank

/-- The arm level of a row in a context. -/
def armIn (r : ArmRow) : Context → ArmLevel
  | .idle => r.idle
  | .inUse => r.inUse
  | .service => r.service

/-- The incident kind of channel c, index c - 1 (07, section 7.1). -/
def channelKind : Fin 6 → IncidentKind
  | 0 => .slotForced
  | 1 => .vaultPry
  | 2 => .cordPull
  | 3 => .keypadForce
  | 4 => .displayStrike
  | 5 => .housingForce

/-- One channel changed. -/
def onChannel (c : Fin 6) (f : Channel → Channel) (s : State) : State :=
  s.onTamper fun t => { t with ch := t.ch.put c (f (t.ch.get c)) }

/-- The arm check of a channel (R135). -/
def armCheck (c : Fin 6) (s : State) : State :=
  let x := s.tamper.ch.get c
  if x.level.reaches (armIn (s.req.cfg.arms.get c) s.tamper.inForce) then
    openIncident (channelKind c) (onChannel c (fun y => { y with raised := true }) s)
  else if x.raised then endCondition (channelKind c) (onChannel c (fun y => { y with raised := false }) s)
  else s

/-- The arm check of every channel. DESIGN CHOICE: in rising order, 1 to 6, which gives the lower channel the lower incident
sequence (log 31). -/
def checkAll (s : State) : State :=
  armCheck 5 (armCheck 4 (armCheck 3 (armCheck 2 (armCheck 1 (armCheck 0 s)))))

/-- The loiter timer runs while channel 1 is at CONTACT or FORCED and the context in force is IDLE (R136). -/
def loiterHolds (s : State) : Bool :=
  2 ≤ s.tamper.ch.v0.level.rank && s.tamper.inForce == .idle && s.tamper.settling == .running

/-- The SLOT_PROBE trigger: the probe mark is set, and the timer stops at its value (R136). -/
def probeTrigger (s : State) : State :=
  openIncident .slotProbe (s.onTamper fun t => { t with loiter := .reached, probe := true })

/-- The loiter timer started or cleared as its conditions begin or cease to hold; the end of a stretch ends SLOT_PROBE. -/
def loiterRefresh (s : State) : State :=
  if loiterHolds s then
    (if s.tamper.loiter = .stopped then s.onTamper fun t => { t with loiter := .running s.now } else s)
  else
    let t := s.onTamper fun x => { x with loiter := .stopped, probe := false }
    if s.tamper.probe then endCondition .slotProbe t else t

/-! ### Reseeding (R130, R131) -/

/-- A channel reseeded from the compensated value of the last completed scan. -/
def Channel.reseed (x : Channel) : Channel :=
  { x with b := x.fc, d := 0, level := .quiet, rising := 0, falling := 0, haltStart := none, reseeds := bump 255 x.reseeds }

/-- A reseed with the arm check that follows it. -/
def reseedChannel (c : Fin 6) (s : State) : State := loiterRefresh (armCheck c (onChannel c Channel.reseed s))

/-- A named channel 0 takes its filtered value as its baseline (R131). -/
def reseedReference (s : State) : State :=
  s.onTamper fun t => { t with ref := { t.ref with b := t.ref.f, reseeds := bump 255 t.ref.reseeds } }

/-- RESEED_TAMPER of the channels whose bit is set in `set_`; nothing while the unit is not RUNNING (R131). -/
def reseedSet (set_ : Nat) (s : State) : State :=
  if s.tamper.settling ≠ .running then s
  else
    let named (i : Nat) (f : State → State) (u : State) : State := if set_.testBit i then f u else u
    named 6 (reseedChannel 5) (named 5 (reseedChannel 4) (named 4 (reseedChannel 3) (named 3 (reseedChannel 2)
      (named 2 (reseedChannel 1) (named 1 (reseedChannel 0) (named 0 reseedReference s))))))

/-! ### The scan (R124, R132) -/

/-- The count of channel `i` in a scan. -/
def rawAt (raw : List (BitVec 16)) (i : Nat) : Nat := (raw.getD i 0).toNat

def rawSix (raw : List (BitVec 16)) : Six Nat :=
  ⟨rawAt raw 1, rawAt raw 2, rawAt raw 3, rawAt raw 4, rawAt raw 5, rawAt raw 6⟩

/-- The arm checks for the level changes of a scan: `was` holds the channels before it. -/
def checkChanged (was : Six Channel) (c : Fin 6) (s : State) : State :=
  if (was.get c).level = (s.tamper.ch.get c).level then s else armCheck c s

/-- A scan in RUNNING: all four stages, then the arm checks. DESIGN CHOICE: the channels are checked in rising order (log 31). -/
def runningScan (raw : List (BitVec 16)) (s : State) : State :=
  let cfg := s.req.cfg
  let was := s.tamper.ch
  let f0 := approach cfg.filterShift (rawAt raw 0) s.tamper.ref.f
  let g : Int := (f0 : Int) - (s.tamper.ref.b : Int)
  let ch := ((was.zip (fun x r => (x, r)) (rawSix raw)).zip
    (fun p t => scanChannel cfg s.now g t p.2 p.1) cfg.thresholds)
  let t := s.onTamper fun t =>
    { t with ref := { t.ref with raw := rawAt raw 0, f := f0, b := approach cfg.refShift f0 t.ref.b }, ch := ch }
  loiterRefresh (checkChanged was 5 (checkChanged was 4 (checkChanged was 3 (checkChanged was 2 (checkChanged was 1
    (checkChanged was 0 t))))))

/-- Stage 1 of the scan with settling count `n`: the first takes the raw count itself (R125, R132). -/
def settleFilter (k n raw f : Nat) : Nat := if n = 1 then raw else approach k raw f

/-- A scan in SETTLING; at the eighth the baselines are set and the unit is RUNNING (R132). -/
def settlingScan (raw : List (BitVec 16)) (s : State) : State :=
  let k := s.req.cfg.filterShift
  let n := s.tamper.settleCount + 1
  let f0 := settleFilter k n (rawAt raw 0) s.tamper.ref.f
  let ch := s.tamper.ch.zip (fun x r => { x with raw := r, f := settleFilter k n r x.f }) (rawSix raw)
  if n < 8 then
    s.onTamper fun t => { t with ref := { t.ref with raw := rawAt raw 0, f := f0 }, ch := ch, settleCount := n }
  else
    s.onTamper fun t =>
      { t with
        ref := { t.ref with raw := rawAt raw 0, f := f0, b := f0 }
        ch := ch.map fun x =>
          { x with fc := x.f, b := x.f, d := 0, level := .quiet, rising := 0, falling := 0, haltStart := none }
        loiter := .stopped
        settling := .running
        settleCount := 0
        inForce := t.context
        settleEnd := none }

/-- A scan completes one interval after the one before it (R124). -/
def scan (raw : List (BitVec 16)) (s : State) : State :=
  let t := s.onTamper fun t => { t with lastScan := some s.now }
  match s.tamper.settling with
  | .waiting => s
  | .settling => settlingScan raw t
  | .running => runningScan raw t

/-- Settling begins: the scan timer starts (R132). -/
def startSettling (s : State) : State :=
  s.onTamper fun t => { t with settling := .settling, settleCount := 0, lastScan := some s.now }

/-! ### Context (R133, R134) -/

/-- The context formed again, with what follows its change. Before RUNNING the context in force follows at once. -/
def contextStage (s : State) : State :=
  let c := formContext s
  if c = s.tamper.context then s
  else if s.tamper.settling ≠ .running then
    s.onTamper fun t => { t with context := c, inForce := c, settleEnd := none }
  else if c = .idle then s.onTamper fun t => { t with context := c, settleEnd := some (s.now + settlingTime) }
  else
    loiterRefresh (checkAll (s.onTamper fun t => { t with context := c, inForce := c, settleEnd := none }))

/-- The context settling timer has run out (R134). -/
def settleContext (s : State) : State :=
  loiterRefresh (checkAll (s.onTamper fun t => { t with inForce := .idle, settleEnd := none }))

/-! ### New settings (R137) -/

/-- A channel whose halt timer has already reached the limit in force is reseeded. -/
def reseedIfHalted (c : Fin 6) (s : State) : State :=
  match (s.tamper.ch.get c).haltStart with
  | none => s
  | some t => if t + 1000 * s.req.cfg.haltLimit ≤ s.now then reseedChannel c s else s

/-- A running loiter timer that has already reached the loiter time in force. -/
def probeIfReached (s : State) : State :=
  match s.tamper.loiter with
  | .running t => if t + 1000 * s.req.cfg.loiter ≤ s.now && !s.tamper.probe then probeTrigger s else s
  | _ => s

/-- The tamper sensing unit takes the configuration in force (R137). DESIGN CHOICE: first the channels whose halt has reached its
limit are seeded again, then the loiter time is met, then the arm checks are made (log 31). -/
def applyTamper (s : State) : State :=
  if s.tamper.settling ≠ .running then s
  else
    let t := s.onTamper fun t => { t with ch := t.ch.map fun x => { x with rising := 0, falling := 0 } }
    checkAll (probeIfReached (reseedIfHalted 5 (reseedIfHalted 4 (reseedIfHalted 3 (reseedIfHalted 2 (reseedIfHalted 1
      (reseedIfHalted 0 t)))))))

end Sys2Proof.Machine
end

