-- ==== Sys2Proof/Machine/Line.lean ====
section
/-!
DEFINITION. The line controller (05): the sender, the release and the grant; the call controller's entry into SEIZING, which a
release by a report can bring about; and the end of a failed report attempt (08, section 8.7), which releases the line.
-/

namespace Sys2Proof.Machine

/-- The fixed times of 05, section 5.1, and of 04, section 4.1, in ms. -/
def guardTime : Nat := 1000
def breakTime : Nat := 60
def makeTime : Nat := 40
def pauseTime : Nat := 700
def grantLimit : Nat := 10000

/-- Digits the sender holds at most (R103). -/
def senderSize : Nat := 80

/-! ### The sender (R103 to R105, R107) -/

def setTone (on : Bool) (code : Nat) (s : State) : State := s.onPins fun p => { p with toneOn := on, td := code }

def setSeize (on : Bool) (s : State) : State := s.onPins fun p => { p with seize := on }

/-- Codes that DECADIC sending drops as they come to the head (R105). -/
def dropUnsendable (m : DialMethod) (q : List Nat) : List Nat :=
  match m with
  | .tone => q
  | .decadic => q.dropWhile (10 ≤ ·)

/-- Breaks of a decadic digit (R105). -/
def breaksOf (d : Nat) : Nat := if d = 0 then 10 else d

/-- A break begins: SEIZE inactive, loop supervision suspended (R100, R105). -/
def startBreak (s : State) : State :=
  setSeize false (s.onLine fun l => { l with phase := .breaking, phaseEnd := some (s.now + breakTime), loopSuspended := true })

/-- The digit at the head of the queue starts; with no digit left to send, the sender is idle. -/
def startDigit (s : State) : State :=
  match s.line.queue, s.line.mode with
  | [], _ => setTone false 0 (s.onLine fun l => { l with phase := .idle, phaseEnd := none, breaks := 0, loopSuspended := false })
  | d :: _, .tone =>
    setTone true d (s.onLine fun l => { l with phase := .toneOn, phaseEnd := some (s.now + l.tOn) })
  | d :: _, .decadic => startBreak (s.onLine fun l => { l with breaks := breaksOf d })

/-- The line state in which a sequence is loaded (R103). -/
def loadState : SendOrigin → LineState
  | .number => .ready
  | .message => .answered
  | .afterAnswer => .answered

/-- Party `w` may load a sequence: it owns the line, and the line is in the sequence's state (R103). -/
def mayLoad (w : LineOwner) (origin : SendOrigin) (l : Line) : Bool :=
  l.owner == w && l.st == loadState origin

/-- A sequence is loaded by party `w` and its first digit started; the line state becomes SENDING. A load in any other line
state, or by a party that is not the owner, is not taken (R103). -/
def loadSender (w : LineOwner) (origin : SendOrigin) (mode : DialMethod) (digits : List Nat) (s : State) : State :=
  if mayLoad w origin s.line then
    startDigit (s.onLine fun l =>
      { l with
        st := .sending, origin := origin, mode := mode, tOn := s.req.cfg.toneOn, tOff := s.req.cfg.toneOff
        queue := dropUnsendable mode (digits.take senderSize) })
  else s

/-- One after-answer tone digit is appended (R107); digits past the 80th are dropped. -/
def appendTone (d : Nat) (s : State) : State :=
  if mayLoad .call .afterAnswer s.line ∧ s.line.queue.length < senderSize then
    let t := s.onLine fun l =>
      { l with origin := .afterAnswer, mode := .tone, tOn := s.req.cfg.toneOn, tOff := s.req.cfg.toneOff
               queue := l.queue ++ [d] }
    if s.line.phase = .idle then startDigit t else t
  else s

/-- The digit in progress is complete and leaves the queue: the next one starts at once (tone), or after the pause. -/
def completeDigit (s : State) : State :=
  let t := s.onLine fun l => { l with queue := dropUnsendable l.mode l.queue.tail }
  match s.line.mode, t.line.queue with
  | .decadic, _ :: _ =>
    t.onLine fun l => { l with phase := .pause, phaseEnd := some (s.now + pauseTime), breaks := 0, loopSuspended := false }
  | _, _ => startDigit t

/-- The last digit of a sequence has been sent and its owner is not yet told. -/
def sendingOver (l : Line) : Bool := l.st == .sending && l.queue == [] && l.phase == .idle

/-! ### SEIZING and the release (R70, R80, R101) -/

/-- The call controller enters SEIZING with its CALL request and its grant timer. Nothing of an earlier call remains. -/
def enterSeizing (followOn : Bool) (s : State) : State :=
  (s.onCall fun c =>
    { c with
      st := .seizing, waiting := false, followOn := followOn, grantEnd := some (s.now + grantLimit)
      seq := none, kind := .paid, number := [], deposit := 0, dialTime := Stamp.zero
      answered := false, answeredAt := none, duration := 0 }).onLine fun l => { l with callReq := true }

/-- The call controller leaves IDLE for SEIZING: the account is opened (R29, R70). -/
def beginSeizing (s : State) : State := enterSeizing false (clearAccount s)

/-- The outputs, the sender and the owner dropped: steps 1 to 3 of R101, with the guard. -/
def dropLine (s : State) : State :=
  (s.onPins fun p => { p with seize := false, toneOn := false, td := 0 }).onLine fun l =>
    { l with
      owner := .none, st := .guarding, queue := [], phase := .idle, phaseEnd := none, breaks := 0
      loopSuspended := false, reversal := false, dialToneEnd := none, guardEnd := some (s.now + guardTime) }

/-- A release by, or on behalf of, the owner `w`; by a party that is not the owner it changes nothing (R101). A report's
release is told to the call controller, which then leaves IDLE if it waits. -/
def releaseLine (w : LineOwner) (s : State) : State :=
  if s.line.owner = .none ∨ s.line.owner ≠ w then s
  else
    let t := dropLine s
    if w = .report ∧ s.call.waiting then beginSeizing t else t

/-- The CALL request withdrawn, or the line released if it has been granted (R96). -/
def withdrawCall (s : State) : State := releaseLine .call (s.onLine fun l => { l with callReq := false })

/-- The REPORT request withdrawn, and with it a reservation (R102), or the line released if it has been granted (R96). -/
def withdrawReport (s : State) : State :=
  releaseLine .report (s.onLine fun l => { l with reportReq := false, reservation := false })

/-! ### The grant (R97, R98) -/

/-- The party that a grant goes to. -/
def grantee (s : State) : LineOwner :=
  if s.line.reservation && s.line.reportReq then .report
  else if s.line.callReq && s.line.reportReq then
    (if emergencyMark s then .call else if urgentMark s then .report else .call)
  else if s.line.callReq then .call
  else if s.line.reportReq then .report
  else .none

/-- The grant conditions checked, and a waiting request granted (R97). -/
def lineGrant (s : State) : State :=
  if s.line.st = .released ∧ s.start.phase = .ready then
    let seize (t : State) : State := setSeize true (t.onLine fun l =>
      { l with st := .seizing, dialToneEnd := some (s.now + 1000 * s.req.cfg.dialToneTimeout) })
    match grantee s with
    | .none => s
    | .call => (seize (s.onLine fun l => { l with owner := .call, callReq := false })).onCall fun c =>
        { c with grantEnd := none }
    | .report => (seize (s.onLine fun l => { l with owner := .report, reportReq := false, reservation := false })).onDial
        fun d => { d with st := .seizing }
  else s

/-- The guard has run out (R101). -/
def endGuard (s : State) : State := lineGrant (s.onLine fun l => { l with st := .released, guardEnd := none })

/-! ### The report dialler's failure (R155) -/

/-- Waits before the second, third and fourth attempt, in ms (08, section 8.1). -/
def retryWait : Nat → Nat
  | 1 => 30000
  | 2 => 120000
  | _ => 600000

/-- Every slot in use changed. -/
def mapSlots (f : Slot → Slot) (s : State) : State := s.onInc fun i => { i with slots := i.slots.map (Option.map f) }

/-- A MARKED slot after a failed attempt. -/
def unmarkSlot (x : Slot) : Slot := if x.report = .marked then { x with report := .unreported, renewed := false } else x

/-- A slot after a failed series. -/
def failSlot (x : Slot) : Slot := if x.report = .unreported then { x with report := .reportFailed } else x

/-- The end of a failed attempt (R155). -/
def attemptFail (reason : FailReason) (s : State) : State :=
  let t := mapSlots unmarkSlot (withdrawReport (s.onDial fun d => { d with handEnd := none }))
  let n := s.dial.attempts + 1
  if n ≤ 3 then
    t.onDial fun d =>
      { d with st := .retryWait, attempts := n, outcome := .failed, reason := reason, retryEnd := some (s.now + retryWait n) }
  else
    (mapSlots failSlot t).onDial fun d =>
      { d with st := .idle, attempts := 0, testMark := false, outcome := .failed, reason := reason, retryEnd := none }

end Sys2Proof.Machine
end

