-- ==== Sys2Proof/Machine/Call.lean ====
section
/-!
DEFINITION. The call controller (04) with what its moves bring about in the other blocks: the tariff switch and the
application of a configuration at IDLE, CLEARING and the return-all, the freeze of the escrow, dialling, ringing, answer,
AFTER_CALL and follow-on, call records, and coins that reach the rail.
-/

namespace Sys2Proof.Machine

/-- The fixed times of 04, section 4.1, in ms. -/
def depositTime : Nat := 30000
def answerTime : Nat := 120000
def followTime : Nat := 10000

/-! ### IDLE and PARKED (R56, R70, R82, R179) -/

/-- The switch: the pending shadow and bank become active, TARIFF_FAULT is cleared and BANK_SWITCH is queued (R56). -/
def tariffSwitch (s : State) : State :=
  match s.tariff.activation, s.tariff.pendShadow with
  | .pending, some x =>
    handBankSwitch (dropReason .tariffFault (s.onTariff fun t =>
      { t with bank := t.pendBank, version := t.pendVersion, shadow := x, clamped := x.clampCount, activation := .none
               pendBank := .a, pendVersion := 0, pendShadow := none }))
  | _, _ => s

/-- The ring almost-full flag evaluated again (R89). -/
def refreshAlmostFull (s : State) : State := s.onCall fun c => { c with almostFull := ringAlmostFull s }

/-- A configuration that empties the report number reaches a dialler in REQUESTING (R151). -/
def applyToDialler (s : State) : State :=
  if s.dial.st = .requesting ∧ s.req.cfg.reportNumber = [] then attemptFail .noNumber s else s

/-- Every block takes its new settings (R1, R89, R95, R112, R137, R156); those not named here are read from the configuration
in force when they are next used. DESIGN CHOICE: the tamper sensing unit comes before the dialler (log 31). -/
def takeSettings (s : State) : State := applyToDialler (applyTamper (recomputeFill (refreshAlmostFull s)))

/-- The pending configuration applied (R179). -/
def applyConfig (s : State) : State :=
  match s.req.reload, s.req.pendCfg with
  | .pending, some c =>
    takeSettings (dropReason .configFault (s.onReq fun r =>
      { r with cfg := c, defaults := false, pendCfg := none, reload := .none }))
  | _, _ => s

/-- Entry into IDLE: the key queue is emptied (R59), a pending switch made and a pending configuration applied (R70). -/
def enterIdle (s : State) : State :=
  applyConfig (tariffSwitch
    ((s.onCall fun c => { c with st := .idle, waiting := false }).onNum fun n => { n with keys := [] }))

/-- Entry into PARKED (R82). -/
def enterParked (s : State) : State :=
  (s.onCall fun c => { c with st := .parked, waiting := false }).onNum fun n => { n with keys := [] }

/-! ### Records (R87, R88) -/

/-- A record of the current call handed over, if the call has one. -/
def handCallRecord (kind : RecordKind) (cause : EndCause) (duration : Nat) (x : Figures) (s : State) : State :=
  match s.call.seq with
  | none => s
  | some q => handRecord ⟨q, kind, callRecordBody q kind cause s.call s.rate.ctx duration x⟩ s

/-- Whole seconds since answer, saturating (R87). -/
def durationNow (s : State) : Nat :=
  match s.call.answeredAt with
  | none => 0
  | some t => min 65535 (seconds t s.now)

/-- The checkpoint record of a call in CONNECTED or GRACE (R48, R93). -/
def takeCheckpoint (s : State) : State :=
  handCallRecord .checkpoint .powerFail (durationNow s) (checkpointFigures s.acct) s

/-! ### CLEARING (R13, R19, R81) -/

/-- Every timer of the call stopped, the duration count too (R78, R81). -/
def stopTimers (s : State) : State :=
  (s.onCall fun c =>
    { c with
      duration := if c.st.charging then durationNow s else c.duration
      grantEnd := none, depositEnd := none, answerEnd := none, assumedEnd := none, holdEnd := none, followEnd := none
      holdFlag := false }).onNum fun n => { n with silenceEnd := none }

/-- Steps 5 to 7 of R81, once the return-all has been reported finished: the CLOSED record, the last end cause, and IDLE or
PARKED with the account cleared. -/
def completeClearing (s : State) : State :=
  let t := handCallRecord .closed s.call.cause s.call.duration (closingFigures s.acct) s
  let u := clearAccount (t.onCall fun c => { c with lastCause := c.cause, cause := .none, seq := none, followOn := false })
  if u.call.hook = .off then enterParked u else enterIdle u

/-- The return-all is finished and reported (R13). -/
def finishReturnAll (s : State) : State :=
  let t := s.onCoin fun c => { c with returnAll := none }
  if s.call.st = .clearing then completeClearing t else t

/-- Where the value held at a frozen clearing is shown (R19, step 3). -/
def heldDetail (v : Nat) (s : State) : State :=
  match s.inc.slots.get .chuteBlocked with
  | some _ => addDetailMoney .chuteBlocked v s
  | none => addDetailMoney .flapFault v s

/-- A return-all that meets a frozen escrow is finished at once with the value held (R19). -/
def finishFrozen (s : State) : State :=
  let v := creditSum s.coin.escrow
  finishReturnAll (holdValue v (heldDetail v (s.onCoin fun c => { c with escrow := holdCredits c })))

/-- The return-all request (R13). -/
def requestReturnAll (s : State) : State :=
  if frozen s then finishFrozen s
  else if anyCredit s.coin.escrow then
    s.onCoin fun c => { c with escrow := markReturns c.escrow, returnAll := some 0 }
  else finishReturnAll s

/-- Entry into CLEARING: steps 1 to 4 of R81, with the closing of the money (R45). -/
def enterClearing (cause : EndCause) (s : State) : State :=
  let t := (stopTimers s).onCall fun c => { c with st := .clearing, cause := cause }
  requestReturnAll (forfeit (endCharging (withdrawCall t)))

/-! ### The freeze (R18, R19, R21) -/

/-- The escrow becomes frozen: pending returns are cancelled, and a return-all in progress is finished. -/
def freezeEscrow (s : State) : State :=
  let t := s.onCoin fun c => { c with escrow := cancelReturns c }
  if s.coin.returnAll.isSome then finishFrozen t else t

/-- CHUTE_BLOCKED or FLAP_FAULT raised, with its incident; if the escrow was not frozen it becomes so (R18, R19, R21).
DESIGN CHOICE: for R21 too, whose steps are in no order, the incident is opened before the freeze finishes a return-all, so that
the value held goes to its detail money (log 31). -/
def raiseFreezing (r : BlockReason) (k : IncidentKind) (s : State) : State :=
  let t := openIncident k (raiseReason r s)
  if frozen s then t else freezeEscrow t

/-! ### COLLECT (R72, R73) -/

/-- The off-hook hold timer started from its full time, unless the hold flag is set (R73). -/
def restartHold (s : State) : State :=
  s.onCall fun c => { c with holdEnd := if c.holdFlag then none else some (s.now + 1000 * s.req.cfg.offhookHold) }

/-- Entry into COLLECT (R61, R72). DESIGN CHOICE: the keys that wait are taken by the KEY_TAKEs that follow, not within the
entry (log 31). -/
def enterCollect (s : State) : State :=
  restartHold ((s.onCall fun c => { c with st := .collect, grantEnd := none, holdFlag := false }).onNum fun n =>
    { n with buffer := [], silenceEnd := none })

/-- A refused attempt counted (R66). -/
def countRefusal (r : Refusing) (s : State) : State :=
  s.onNum fun n => { n with refused := bump 65535 n.refused, lastRefusal := r }

/-- A refused number: counted, the buffer emptied, the call stays in COLLECT (R66, R72). -/
def refuseNumber (r : Refusing) (s : State) : State :=
  restartHold ((countRefusal r s).onNum fun n => { n with buffer := [], silenceEnd := none })

/-! ### Answer, AFTER_CALL and follow-on (R77 to R80) -/

/-- Answer (R77). -/
def takeAnswer (kind : AnswerKind) (s : State) : State :=
  let t := (s.onCall fun c =>
    { c with st := .connected, answerEnd := none, assumedEnd := none, answered := true, answeredAt := some s.now }).onLine
      fun l => { l with st := if l.st = .awaitAnswer then .answered else l.st }
  let u := startCharging kind t
  if u.pfw then takeCheckpoint u else handCallRecord .openRec .none 0 (openFigures u.acct) u

/-- The call is of a METER band (R76). -/
def isMeter (s : State) : Bool :=
  match s.rate.ctx with
  | some x => x.mode == .meter
  | none => false

/-- Entry into RINGING (R76). A reversal already present is the answer, and so is an assumed-answer delay of 0. -/
def enterRinging (s : State) : State :=
  let assumed := s.req.cfg.supervision == .unsupervised && !isMeter s
  let t := s.onCall fun c =>
    { c with
      st := .ringing, answerEnd := some (s.now + answerTime)
      assumedEnd := if assumed then some (s.now + 1000 * s.req.cfg.assumedDelay) else none }
  if s.line.reversal then takeAnswer .reversal t
  else if assumed ∧ s.req.cfg.assumedDelay = 0 then takeAnswer .assumed t
  else t

/-- Entry into AFTER_CALL: charging and the duration count end (R37, R78, R79). -/
def enterAfterCall (s : State) : State :=
  (endCharging (stopTimers s)).onCall fun c => { c with st := .afterCall, followEnd := some (s.now + followTime) }

/-- A follow-on (R46, R80). -/
def takeFollowOn (s : State) : State :=
  let t := endCharging (stopTimers s)
  let u := (handCallRecord .closed .followOn t.call.duration (followOnFigures t.acct) t).onCall fun c =>
    { c with lastCause := .followOn }
  lineGrant (enterSeizing true (handOverAccount (releaseLine .call u)))

/-! ### The sender's completion (R103) -/

/-- The handshake limits (08, section 8.1), in ms. -/
def readyLimit : Nat := 20000
def kissoffLimit : Nat := 5000

/-- A sequence sent to its last digit is told to its owner, and the line state advances (R103, R75, R151, R154). -/
def tellSent (s : State) : State :=
  if sendingOver s.line then
    match s.line.origin with
    | .number =>
      let t := s.onLine fun l => { l with st := .awaitAnswer }
      (match s.line.owner with
       | .call => if s.call.st = .dialling then enterRinging t else t
       | .report =>
         if s.dial.st = .dialling then t.onDial fun d => { d with st := .awaitReady, handEnd := some (s.now + readyLimit) }
         else t
       | .none => t)
    | .message =>
      let t := s.onLine fun l => { l with st := .answered }
      if s.dial.st = .message then t.onDial fun d => { d with st := .awaitKissoff, handEnd := some (s.now + kissoffLimit) }
      else t
    | .afterAnswer => s.onLine fun l => { l with st := .answered }
  else s

/-! ### DIALLING (R75, R86, R89, R90) -/

/-- Sequence N allocated to the call, with the tests of R89. -/
def allocateRecord (s : State) : State :=
  let t := refreshAlmostFull (s.onCall fun c => { c with seq := some c.nextSeq, nextSeq := next16 c.nextSeq })
  if 124 ≤ t.call.unacked then raiseReason .ringFull t else t

/-- Entry into DIALLING once the record has been decided: the number is handed to the sender. -/
def dialNumber (s : State) : State :=
  tellSent (loadSender .call .number s.req.cfg.dialMethod s.call.number ((stopTimers s).onCall fun c =>
    { c with st := .dialling, dialTime := s.stamp }))

/-- Entry into DIALLING with a record. -/
def dialRecorded (s : State) : State := dialNumber (allocateRecord s)

/-- Entry into AWAIT_DEPOSIT (R74). -/
def awaitDeposit (deposit : Nat) (s : State) : State :=
  (stopTimers s).onCall fun c => { c with st := .awaitDeposit, deposit := deposit, depositEnd := some (s.now + depositTime) }

/-! ### Coins that reach the rail (R10, R30, R41, R73, R74) -/

/-- A coin that has reached escrow in GRACE (R41). -/
def graceCoin (s : State) : State :=
  match collectRequest s with
  | (none, _) => s
  | (some v, t) =>
    let x := min v s.acct.o
    let u := t.onAcct fun a => { a with o := a.o - x, b := a.b - x }
    if u.acct.o = 0 then
      clearingTest ((u.onRate fun r => { r with graceEnd := none }).onCall fun c => { c with st := .connected })
    else u

/-- What follows in the call when a CREDIT coin has been reported. -/
def afterCredit (s : State) : State :=
  match s.call.st with
  | .collect => if s.num.buffer = [] ∧ s.call.holdFlag = false then restartHold s else s
  | .awaitDeposit => if s.call.deposit ≤ s.acct.available then dialRecorded s else s
  | .connected => clearingTest s
  | .grace => graceCoin s
  | _ => s

/-- A CREDIT coin is reported: its value is added to E and to inserted (R30). -/
def creditCoin (v : Nat) (s : State) : State := s.onAcct fun a => ({ a with e := a.e + v }).addInserted v

/-- A coin of class `cls` completes its passage onto the rail (R10). -/
def coinArrives (cls : Fin 8) (s : State) : State :=
  let v := s.req.cfg.values.get cls
  if s.coin.returnAll.isSome then creditCoin v (appendEscrow (some cls) v .releasingReturn .credit s)
  else if sessionOpen s.call then afterCredit (creditCoin v (appendEscrow (some cls) v .held .credit s))
  else appendEscrow (some cls) v .releasingReturn .heldOver s

/-! ### Seizure and loss of the line (R71, R72, R99, R100) -/

/-- The states in which a call has begun and has not entered CLEARING: SEIZING to AFTER_CALL. -/
def CallState.inCall : CallState → Bool
  | .idle | .clearing | .parked => false
  | _ => true

/-- A call that has begun clears with `cause`; in the other states nothing is cleared. -/
def clearCall (cause : EndCause) (s : State) : State := if s.call.st.inCall then enterClearing cause s else s

end Sys2Proof.Machine
end

