-- ==== Sys2Proof/Machine/Number.lean ====
section
/-!
DEFINITION. The number analyser (03, sections 3.4 to 3.6): the buffer, the tests after each digit, completion, routing and
refusal.
-/

namespace Sys2Proof.Machine

/-- The silence timer (R61), in ms. -/
def silenceTime : Nat := 4000

/-- The length of the number buffer. -/
def bufferSize : Nat := 20

/-! ### Matching (R62 to R64) -/

/-- The buffer equals an entry of the emergency list. -/
def isEmergency (list : List (List Nat)) (b : List Nat) : Bool := list.contains b

/-- The entry's prefix is a prefix of the buffer. -/
def Route.matches (b : List Nat) (r : Route) : Bool := r.digits.isPrefixOf b

/-- The buffer is a proper prefix of `digits`. -/
def properPrefix (b digits : List Nat) : Bool := b.isPrefixOf digits && b.length < digits.length

/-- The matching entry with the longest prefix. -/
def candidate (routes : List Route) (b : List Nat) : Option Route :=
  routes.foldl (fun best r =>
    if r.matches b then
      match best with
      | none => some r
      | some x => if x.digits.length < r.digits.length then some r else some x
    else best) none

/-- A longer prefix is possible. -/
def longerPossible (routes : List Route) (b : List Nat) : Bool := routes.any fun r => properPrefix b r.digits

/-- The number can still reach a route (R63). -/
def canReach (routes : List Route) (emergency : List (List Nat)) (b : List Nat) : Bool :=
  (routes.any fun r => r.matches b) || longerPossible routes b || emergency.any fun e => properPrefix b e

/-- An end mark or silence completes the number on this candidate (R64, cases 2 and 3). -/
def completesOn (routes : List Route) (b : List Nat) : Option Route :=
  match candidate routes b with
  | none => none
  | some r => if r.minLen ≤ b.length && !longerPossible routes b then some r else none

/-! ### Routing (R31, R65) -/

/-- The rating context of a band of the active shadow. -/
def contextOf (t : Tariff) (k : Nat) (x : Band) : RatingContext where
  bank := t.bank
  version := t.version
  band := some k
  mode := x.mode
  uncharged := x.free
  initial := x.initial
  delay := x.delay
  stepLen := x.stepLen
  uPeak := x.uPeak
  uOff := x.uOff
  pulseValue := x.pulseValue
  offStart := t.shadow.offStart
  offEnd := t.shadow.offEnd
  factor := t.shadow.factor
  grace := t.shadow.grace

/-- The uncharged context of an EMERGENCY call. -/
def emergencyContext (t : Tariff) : RatingContext where
  bank := t.bank
  version := t.version
  band := none
  mode := .localBand
  uncharged := true
  initial := 0
  delay := 0
  stepLen := 0
  uPeak := 0
  uOff := 0
  pulseValue := 0
  offStart := t.shadow.offStart
  offEnd := t.shadow.offEnd
  factor := t.shadow.factor
  grace := t.shadow.grace

/-- A routed outcome: the rating context and what the call is. -/
def routeCall (kind : RouteKind) (x : RatingContext) (s : State) : State :=
  (s.onRate fun r => { r with ctx := some x }).onCall fun c => { c with kind := kind, number := s.num.buffer }

/-- Routed as EMERGENCY: recorded while U_c is below 128, and else counted without a record (R90). -/
def routeEmergency (s : State) : State :=
  let t := routeCall .emergency (emergencyContext s.tariff) s
  if s.call.unacked < 128 then dialRecorded t
  else dialNumber (t.onCall fun c => { c with unrecorded := bump 255 c.unrecorded })

/-- A completed number that holds * or # (R65, order 4). -/
def undiallable (s : State) : Bool := s.num.buffer.any (10 ≤ ·) && s.req.cfg.dialMethod == .decadic

/-- Routed to a band (R65, orders 2 to 7; R90). -/
def routeBand (k : Nat) (x : Band) (s : State) : State :=
  if x.barred then refuseNumber .refusedBarred s
  else if s.call.reasons.blocksRouting && !x.free then refuseNumber .refusedBlocked s
  else if undiallable s then refuseNumber .undiallable s
  else if x.free then
    (if s.call.unacked < 128 then dialRecorded (routeCall .free (contextOf s.tariff k x) s)
     else refuseNumber .refusedBlocked s)
  else
    let t := routeCall .paid (contextOf s.tariff k x) s
    if x.deposit ≤ s.acct.available then dialRecorded t else awaitDeposit x.deposit t

/-- The number is complete on entry `r`. A band that the shadow does not hold reaches no route. -/
def completeNumber (r : Route) (s : State) : State :=
  match s.tariff.shadow.bands[r.band]? with
  | none => refuseNumber .noRoute s
  | some x => routeBand r.band x s

/-! ### Digits and keys (R60, R61, R64) -/

/-- The three tests after a digit has been stored (R61). -/
def analyse (s : State) : State :=
  let b := s.num.buffer
  let routes := s.tariff.shadow.routes
  if isEmergency s.req.cfg.emergency b then routeEmergency s
  else if !canReach routes s.req.cfg.emergency b then refuseNumber .noRoute s
  else match candidate routes b with
    | none => s
    | some r => if b.length = r.maxLen then completeNumber r s else s

/-- A digit taken in COLLECT (R61, R73). -/
def storeDigit (d : Nat) (s : State) : State :=
  if s.num.buffer.length < bufferSize then
    analyse ((s.onNum fun n => { n with buffer := n.buffer ++ [d], silenceEnd := some (s.now + silenceTime) }).onCall
      fun c => { c with holdEnd := none })
  else s

/-- A # taken in COLLECT: the end mark, or a digit (R64). -/
def hashKey (s : State) : State :=
  match completesOn s.tariff.shadow.routes s.num.buffer with
  | some r => completeNumber r s
  | none => storeDigit 11 s

/-- CLEAR in COLLECT (R61, R73). -/
def clearKey (s : State) : State :=
  let t := s.onNum fun n => { n with buffer := [], silenceEnd := none }
  if s.num.buffer = [] then t else restartHold t

/-- The silence timer has run out (R64). -/
def silenceOver (s : State) : State :=
  let t := s.onNum fun n => { n with silenceEnd := none }
  match completesOn s.tariff.shadow.routes s.num.buffer with
  | some r => completeNumber r t
  | none => refuseNumber .noRoute t

/-- A tone digit keyed in CONNECTED (R60, R107). -/
def toneKey (d : Nat) (s : State) : State := if s.req.cfg.dialMethod = .decadic then s else appendTone d s

/-- A key in COLLECT. -/
def collectKey (k : Key) (s : State) : State :=
  match k with
  | .digit d => storeDigit d.val s
  | .star => storeDigit 10 s
  | .hash => hashKey s
  | .clear => clearKey s
  | .followOn => s

/-- A key in CONNECTED. -/
def connectedKey (k : Key) (s : State) : State :=
  match k with
  | .digit d => toneKey d.val s
  | .star => toneKey 10 s
  | .hash => toneKey 11 s
  | .clear => s
  | .followOn => takeFollowOn s

/-- A key in AFTER_CALL. -/
def afterCallKey (k : Key) (s : State) : State :=
  match k with
  | .followOn => takeFollowOn s
  | _ => s

/-- A key handled by the call state (R60). -/
def handleKey (k : Key) (s : State) : State :=
  match s.call.st with
  | .collect => collectKey k s
  | .connected => connectedKey k s
  | .afterCall => afterCallKey k s
  | _ => s

end Sys2Proof.Machine
end

