-- ==== Sys2Proof/Machine/Report.lean ====
section
/-!
DEFINITION. The report dialler (08, sections 8.5 to 8.7): the beginning of an attempt with preemption (05, section 5.5), the
message and the kiss-off; and what the line controller tells the parties about a seizure.
-/

namespace Sys2Proof.Machine

/-- The line taken from a preemptible call (R102, R73). -/
def preempt (s : State) : State :=
  let t := releaseLine .call (s.onLine fun l => { l with reservation := true })
  enterClearing .preempted t

/-- The line controller asks whether the call may be preempted (R102). -/
def askPreempt (s : State) : State :=
  if s.line.owner = .call ∧ s.line.reportReq ∧ preemptible s.call then preempt s else s

/-- An attempt begins (R151), with the number and the station id of the configuration in force. -/
def attemptBegin (s : State) : State :=
  let t := s.onDial fun d =>
    { d with retryEnd := none, number := s.req.cfg.reportNumber, station := s.req.cfg.stationId }
  if s.req.cfg.reportNumber = [] then attemptFail .noNumber t
  else
    askPreempt (lineGrant ((t.onDial fun d => { d with st := .requesting }).onLine fun l => { l with reportReq := true }))

/-- A fresh series begins. -/
def freshSeries (s : State) : State := attemptBegin (s.onDial fun d => { d with attempts := 0 })

/-- The qualifying events that this step took in IDLE or RETRY_WAIT acted on (R150; log 8). -/
def reactStage (s : State) : State :=
  if s.dial.react then
    let t := s.onDial fun d => { d with react := false }
    if s.dial.st.startsSeries then freshSeries t else t
  else s

/-! ### The message (R152, R153) -/

/-- The slots that a message takes, in its order: severity 3 before 2, and by kind code within one severity. -/
def messageSlots (i : Incidents) : List (IncidentKind × Slot) :=
  (kindSlots i).filter (fun p => p.2.reportable && p.2.severity == 3)
    ++ (kindSlots i).filter (fun p => p.2.reportable && p.2.severity != 3)

/-- Kind code, severity and count digit. -/
def slotDigits (p : IncidentKind × Slot) : List Nat :=
  [kindCode p.1 / 10, kindCode p.1 % 10, p.2.severity, min 9 (p.2.triggers + p.2.detailCount)]

/-- The message for the slots taken; with none it is the test message. -/
def messageDigits (station : List Nat) (taken : List (IncidentKind × Slot)) : List Nat :=
  station ++ [10] ++ (if taken.isEmpty then [0, 0, 0, 0] else taken.flatMap slotDigits) ++ [11]

/-- A slot taken into a message. -/
def markSlot (x : Slot) : Slot := if x.reportable then { x with report := .marked, renewed := false } else x

/-- The ready tone: the message is built and loaded (R152). -/
def buildMessage (s : State) : State :=
  let t := (mapSlots markSlot s).onDial fun d => { d with st := .message, handEnd := none }
  tellSent (loadSender .report .message .tone (messageDigits s.dial.station (messageSlots s.inc)) t)

/-- A MARKED slot at the kiss-off (R154, step 1). -/
def kissSlot (x : Slot) : Slot :=
  if x.report = .marked then { x with report := if x.renewed then .unreported else .reported, renewed := false } else x

/-- The kiss-off (R154). -/
def kissOff (s : State) : State :=
  let t := releaseLine .report ((mapSlots kissSlot s).onDial fun d =>
    { d with handEnd := none, testMark := false, outcome := .delivered, delivered := bump 65535 d.delivered
             attempts := 0 })
  if reportDue t then attemptBegin t else t.onDial fun d => { d with st := .idle }

/-- An ACKTONE detection (R108): the ready tone or the kiss-off. -/
def acktone (s : State) : State :=
  if s.line.owner = .report then
    match s.line.st with
    | .awaitAnswer =>
      let t := s.onLine fun l => { l with st := .answered }
      if s.dial.st = .awaitReady then buildMessage t else t
    | .answered => if s.dial.st = .awaitKissoff then kissOff s else s
    | _ => s
  else s

/-! ### The line's news to its owner (R71, R99, R100, R151) -/

/-- The line is READY (R99). -/
def lineReady (s : State) : State :=
  let t := s.onLine fun l => { l with st := .ready, dialToneEnd := none }
  match s.line.owner with
  | .call => if s.call.st = .seizing then enterCollect t else t
  | .report =>
    tellSent (loadSender .report .number s.req.cfg.dialMethod s.dial.number (t.onDial fun d => { d with st := .dialling }))
  | .none => t

/-- The seizure has failed (R71, R99, R100, R155). -/
def seizureFailed (s : State) : State :=
  let t := (releaseLine s.line.owner s).onLine fun l => { l with seizeFails := bump 255 l.seizeFails }
  match s.line.owner with
  | .call => if s.call.st = .seizing then enterClearing .noDialtone t else t
  | .report => attemptFail .noDialtone t
  | .none => t

/-- The loop is lost with the line seized and past dial tone (R100). -/
def lineLost (s : State) : State :=
  let t := (releaseLine s.line.owner s).onLine fun l => { l with lineLosses := bump 255 l.lineLosses }
  match s.line.owner with
  | .call => clearCall .lineLost t
  | .report => attemptFail .lineLost t
  | .none => t

/-- LOOP absent for 400 ms (R100). -/
def loopLost (s : State) : State :=
  if s.line.owner = .none ∨ s.line.loopSuspended then s
  else if s.line.st = .seizing then seizureFailed s
  else lineLost s

end Sys2Proof.Machine
end

