-- ==== Sys2Proof/Machine/Settle.lean ====
section
/-!
DEFINITION. What follows a command's own effect in the same step: the tamper context formed again (R133), the report dialler's
action on qualifying events (R150), slots that can leave the incident table (R146), items that can join the own-write queue
(R169), and the pins that follow conditions (R2, R44, R109).
-/

namespace Sys2Proof.Machine

/-! ### Slots that leave (R144, R146) -/

/-- The close state is CLOSED_PENDING and the report state final. -/
def Slot.mayLeave (x : Slot) : Bool :=
  x.closedPending && (x.report == .reported || x.report == .reportFailed || x.report == .notRequired)

/-- The older of two slots by incident sequence. DESIGN CHOICE: of two whose sequences differ by exactly 32,768, neither of
which is newer, the one with the lower kind code (log 31). -/
def olderSlot (best : Option (IncidentKind × Slot)) (p : IncidentKind × Slot) : Option (IncidentKind × Slot) :=
  match best with
  | none => some p
  | some q => if newer q.2.seq p.2.seq then some p else some q

/-- The slot that leaves next, when its record can be queued. DESIGN CHOICE: where the sequences of three or more ready slots run
in a circle, so that none is the oldest, the slots are taken by kind code, each later one preferred when it is older than the one
preferred so far (log 31). -/
def leaving (s : State) : Option (IncidentKind × Slot) :=
  if s.inc.unacked < 64 && hasRoom .incident s then ((kindSlots s.inc).filter (·.2.mayLeave)).foldl olderSlot none
  else none

/-- A slot's record is queued and the slot emptied. -/
def queueIncident (k : IncidentKind) (x : Slot) (s : State) : State :=
  pushItem (.incident s.inc.nextLog (incidentBody s.inc.nextLog k x s.stamp))
    (s.onInc fun i => { i with slots := i.slots.put k none, nextLog := next16 i.nextLog })

/-- Slots leave, oldest first, as far as room goes: at most `fuel` of them. -/
def leaveStage : Nat → State → State
  | 0, s => s
  | fuel + 1, s =>
    match leaving s with
    | none => s
    | some (k, x) => leaveStage fuel (queueIncident k x s)

/-! ### The whole -/

/-- Context and reports: a report that takes the line changes the context, and a change of context can open incidents. -/
def reactions (s : State) : State := reactStage (contextStage (reactStage (contextStage s)))

/-- The stages that follow a command whose effect reaches several blocks. -/
def settle (s : State) : State := releaseHeld (leaveStage 16 (reactions s))

/-- The end of every command: the pins are brought to their rules. -/
def complete (s : State) : Host.Outcome State Fault Refusal := .next (refreshPins s)

end Sys2Proof.Machine
end

