-- ==== Sys2Proof/Machine/LivePage.lean ====
section
/-!
DEFINITION. The live page: 64 bytes in one of four views, as a read's snapshot shows them (R163, R185).
-/

namespace Sys2Proof.Machine

/-- The view chosen by the last byte of the request-page image (R185). -/
def viewOf (image : List Byte) : Nat :=
  let v := byteAt image 0x3F
  if v ≤ 3 then v else 0

/-- Bytes 0x00 to 0x03, the same in every view. The step is shown in SCANNING alone. -/
def livePrefix (s : State) (view : Nat) : List Byte :=
  [b8 view, b8 (s.start.phase.code * 16 + if s.start.phase = .scanning then s.start.step else 0),
   b8 s.call.st.code, b8 s.link.status.code]

/-- Whole seconds left of a timer that ends at `t` (R149, section 6.1). -/
def secondsLeft (s : State) (t : Option Nat) : Nat :=
  match t with
  | none => 0
  | some e => (e - s.now) / 1000

/-- View 0: call, money, coins and line. -/
def liveCall (s : State) : List Byte :=
  let a := s.acct
  [b8 s.call.lastCause.code,
   b8 (flagBit (s.call.hook == .off) 1 + flagBit s.call.followOn 2 + flagBit a.lowCredit 4
     + flagBit (s.call.st == .grace) 8 + flagBit (frozen s) 16 + flagBit s.call.almostFull 32
     + flagBit s.call.seq.isSome 64 + flagBit s.clock.isSet 128)]
  ++ w16 (s.call.seq.getD 0)
  ++ [b8 s.call.reasons.mask, b8 s.call.unacked, b8 s.call.unrecorded]
  ++ money6 a.available ++ money6 a.b ++ money6 a.e ++ money6 a.c ++ money6 a.o ++ w16 a.units
  ++ [b8 s.coin.transit.length, b8 s.coin.escrow.length, b8 s.coin.strayStrobes, b8 s.coin.strayReturns,
      b8 s.coin.strayVault, b8 s.coin.purged]
  ++ w16 s.num.refused ++ [b8 s.num.lastRefusal.code, b8 s.num.dropped]
  ++ packString s.num.buffer 10
  ++ [b8 s.line.owner.code, b8 s.line.st.code, b8 s.line.seizeFails, b8 s.line.lineLosses]
  ++ stampBytes s.stamp

/-- A set of kinds: kind k is bit k - 1 (R184). -/
def kindMask (i : Incidents) (p : Slot → Bool) : Nat :=
  (kindSlots i).foldl (fun n x => if p x.2 then n + 2 ^ (kindCode x.1 - 1) else n) 0

/-- View 1: incidents, dialler and vault. DESIGN CHOICE: with no last collection, of which R185 gives the kind code 0 alone, its
sequence and value are shown as 0 (log 31). -/
def liveIncidents (s : State) : List Byte :=
  let v := s.vault
  w16 (kindMask s.inc fun _ => true) ++ w16 (kindMask s.inc (·.active))
  ++ w16 (kindMask s.inc fun x => x.report == .unreported || x.report == .marked) ++ w16 (kindMask s.inc (·.closedPending))
  ++ [b8 s.inc.unacked, b8 s.dial.st.code, b8 s.dial.attempts,
      b8 (flagBit s.dial.testMark 1 + flagBit v.fillWarning 2 + flagBit v.windowEnd.isSome 4),
      b8 s.dial.outcome.code, b8 s.dial.reason.code]
  ++ w16 (secondsLeft s s.dial.retryEnd) ++ w16 s.dial.delivered ++ w16 (min 65535 v.fill)
  ++ w16 (secondsLeft s v.windowEnd)
  ++ [b8 (flagBit v.doorOpen 1), b8 (flagBit v.boxPresent 1), b8 v.session.code]
  ++ w16 v.epoch ++ w16 v.collSeq ++ money8 v.since.value
  ++ (match v.summary with
      | none => w16 0 ++ money8 0 ++ [b8 0]
      | some x => w16 x.seq ++ money8 x.value ++ [b8 x.kind.code])

/-- View 2: incident sequence and trigger count of each kind. -/
def liveSlots (s : State) : List Byte :=
  IncidentKind.list.flatMap fun k =>
    match s.inc.slots.get k with
    | none => [b8 0, b8 0, b8 0]
    | some x => w16 x.seq ++ [b8 x.triggers]

/-- View 3: tamper, tariff, requests and memory link. -/
def liveSystem (s : State) : List Byte :=
  let t := s.tariff
  let waiting := t.activation != .none
  [b8 s.tamper.context.code, b8 s.tamper.inForce.code, b8 s.tamper.settling.code, b8 s.tamper.settleCount]
  ++ s.tamper.ch.toList.map (fun c => b8 c.level.code)
  ++ b8 s.tamper.ref.reseeds :: s.tamper.ch.toList.map (fun c => b8 c.reseeds)
  ++ [b8 t.bank.code] ++ w16 t.version ++ [b8 t.activation.code]
  ++ (if waiting then b8 t.pendBank.code :: w16 t.pendVersion else [b8 0, b8 0, b8 0])
  ++ [b8 t.clamped] ++ findingBytes t.outcome ++ findingBytes s.req.outcome
  ++ [b8 s.req.st.code, b8 s.req.lastCode, b8 s.req.lastTag, b8 s.req.lastResult, b8 s.req.lost, b8 s.req.reload.code]
  ++ w16 s.link.vetoes ++ w16 s.link.lastVetoed
  ++ [b8 s.link.memFaults, b8 s.writer.queue.length, b8 s.writer.dropped,
      b8 (flagBit s.req.defaults 1 + flagBit t.unwritten 2)]

/-- The live page as it stands, in the view chosen. -/
def livePage (s : State) : List Byte :=
  let v := viewOf s.link.image
  fit 64 (livePrefix s v ++
    (match v with
     | 1 => liveIncidents s
     | 2 => liveSlots s
     | 3 => liveSystem s
     | _ => liveCall s))

end Sys2Proof.Machine
end

