-- ==== Sys2Proof/Machine/Request.lean ====
section
/-!
DEFINITION. The request handler (10, sections 10.1 to 10.3): taking a request, its answer, the ten requests, and the ends of the
two validations that a request can start (R54, R179), which start-up uses too.
-/

namespace Sys2Proof.Machine

/-! ### Results (11, section 11.7) -/

inductive Result where
  | ok | busy | badCode | badParam | refusedState | invalidBank | invalidConfig
  deriving DecidableEq, Repr

def Result.code : Result → Nat
  | .ok => 0 | .busy => 1 | .badCode => 2 | .badParam => 3 | .refusedState => 4 | .invalidBank => 5 | .invalidConfig => 6

/-- The response to the latched request: recorded for the live page and handed to the record writer (R175). -/
def respond (res : Result) (detail : List Byte) (s : State) : State :=
  let code := byteAt s.req.latched 0
  let tag := byteAt s.req.latched 1
  handResponse (responseBody code tag res.code detail)
    (s.onReq fun r => { r with lastCode := code, lastTag := tag, lastResult := res.code })

/-! ### Station clock (R180) -/

/-- The clock set, advancing one second later. -/
def setClockTo (day sec : Nat) (s : State) : State := s.onClock fun _ => ⟨day, sec, true, some (s.now + 1000)⟩

/-! ### Acknowledgements (R91, R148) -/

/-- ACK_CALLS: the answer, and what the call controller does. -/
def ackCalls (q : Nat) (s : State) : Result × State :=
  if newer q s.call.lastFinal then (.badParam, s)
  else if newer q s.call.ackedSeq then
    let t := s.onCall fun c => { c with ackedSeq := q }
    let u := if t.call.unacked < 124 then dropReason .ringFull t else t
    (.ok, refreshAlmostFull u)
  else (.ok, s)

/-- ACK_INCIDENTS. -/
def ackIncidents (q : Nat) (s : State) : Result × State :=
  if newer q s.inc.lastLog then (.badParam, s)
  else if newer q s.inc.ackedLog then (.ok, s.onInc fun i => { i with ackedLog := q })
  else (.ok, s)

/-! ### TEST_REPORT (R150) -/

def testReport (s : State) : State :=
  if s.dial.testMark then s
  else
    let t := s.onDial fun d => { d with testMark := true }
    if s.dial.st = .idle then freshSeries t else t

/-! ### CLEAR_BLOCK (R22, R121, R177) -/

/-- SLOT_JAM cleared (R22). -/
def clearSlotJam (s : State) : State :=
  if s.blocked .slotJam then endCondition .slotJam (dropReason .slotJam s) else s

/-- CHUTE_BLOCKED or FLAP_FAULT cleared; if neither remains, the escrow is unfrozen and releases are assigned (R22). -/
def clearFreezing (r : BlockReason) (k : IncidentKind) (s : State) : State :=
  if s.blocked r then
    let t := endCondition k (dropReason r s)
    if frozen t then t
    else t.onCoin fun c => { c with escrow := c.escrow.map (assignRelease (r == .chuteBlocked)) }
  else s

/-- ACCOUNT_FAULT cleared: a new epoch starts (R121). -/
def clearAccountFault (s : State) : State :=
  if s.blocked .accountFault then
    let t := (endCondition .accountFault (dropReason .accountFault s)).onVault fun v =>
      { v with epoch := next16 v.epoch, collSeq := next16 v.collSeq, sat := false }
    let r := formCollection t .epochStart 0 false
    let u := handCollection r (pageBNow t.vault) (handVaultUpdate (setSummary r t))
    if u.tariff.unwritten then handBankSwitch (u.onTariff fun x => { x with unwritten := false }) else u
  else s

/-- The reason of a CLEAR_BLOCK passed to its owner (R177, step 3). -/
def clearReason : Nat → State → State
  | 0, s => clearSlotJam s
  | 1, s => clearFreezing .chuteBlocked .chuteBlocked s
  | 2, s => clearFreezing .flapFault .flapFault s
  | _, s => clearAccountFault s

/-- The reasons that CLEAR_BLOCK clears (R177, step 1). -/
def clearable (code : Nat) : Bool := code == 0 || code == 1 || code == 2 || code == 6

def clearBlockRequest (code : Nat) (s : State) : State :=
  if !clearable code then respond .badParam [] s
  else if s.tamper.context ≠ .service then respond .refusedState [] s
  else respond .ok [] (clearReason code s)

/-! ### ACTIVATE_TARIFF and the validation of a bank (R51, R54, R55, R57) -/

/-- The first page of a bank. -/
def firstPage : Bank → Nat
  | .a => 10
  | .b => 42

def bankOf : Nat → Option Bank
  | 0 => some .a
  | 1 => some .b
  | _ => none

/-- The validation of a bank begins with the read of its first page. DESIGN CHOICE: in the validation of start-up step 3 the
activation state stays NONE, and the shadow filled then is no pending shadow (log 31). -/
def startValidation (k : Bank) (expected : Option Nat) (s : State) : State :=
  s.onTariff fun t => { t with check := some ⟨k, expected, [], 0⟩, wantRead := some (firstPage k) }

def activateTariff (bank version : Nat) (s : State) : State :=
  if s.tariff.activation ≠ .none then respond .busy [] s
  else match bankOf bank with
    | none => respond .badParam [] s
    | some k =>
      if k = s.tariff.bank then respond .badParam [] s
      else startValidation k (some version) (s.onTariff fun t =>
        { t with activation := .validating, pendBank := k, pendVersion := version })

/-- The details of a successful ACTIVATE_TARIFF: SWITCHED or PENDING, the count and the set of CLAMPED bands. -/
def clampDetail (switched : Bool) (x : Shadow) : List Byte :=
  b8 (if switched then 0 else 1) :: b8 x.clampCount :: w32 x.clampMask

/-- A validation that a request started has succeeded (R54). -/
def activationSucceeds (x : Shadow) (s : State) : State :=
  let t := s.onTariff fun t => { t with activation := .pending, pendShadow := some x, check := none, wantRead := none }
  if s.call.st = .idle then respond .ok (clampDetail true x) (tariffSwitch t) else respond .ok (clampDetail false x) t

/-- A validation that a request started has failed (R54). -/
def activationFails (f : Finding) (s : State) : State :=
  respond .invalidBank (findingBytes f) (s.onTariff fun t =>
    { t with activation := .none, pendBank := .a, pendVersion := 0, pendShadow := none, check := none, wantRead := none })

/-! ### RELOAD_CONFIG and the validation of the configuration block (R178, R179) -/

/-- A reading of the block begins with page 3. -/
def startConfigRead (s : State) : State := s.onReq fun r => { r with reading := some [], wantRead := some 3 }

def reloadConfig (s : State) : State :=
  if s.req.reload ≠ .none then respond .busy [] s
  else startConfigRead (s.onReq fun r => { r with reload := .reading })

/-- A reload has found the block valid: applied at once in IDLE, and else pending (R179). -/
def reloadSucceeds (c : Settings) (s : State) : State :=
  let t := s.onReq fun r => { r with reload := .pending, pendCfg := some c, reading := none, wantRead := none }
  if s.call.st = .idle then applyConfig (respond .ok [b8 0] t) else respond .ok [b8 1] t

/-- A reload has found the block invalid. -/
def reloadFails (f : Finding) (s : State) : State :=
  respond .invalidConfig (findingBytes f) (s.onReq fun r => { r with reload := .none, reading := none, wantRead := none })

/-! ### Taking a request (R174, R176) -/

/-- A result with its state, answered. -/
def answerWith (p : Result × State) : State := respond p.1 [] p.2

def setClockRequest (day sec : Nat) (s : State) : State :=
  if 86399 < sec then respond .badParam [] s else respond .ok [] (setClockTo day sec s)

def openServiceRequest (minutes : Nat) (s : State) : State :=
  if within 1 minutes 60 then respond .ok [] (openWindow minutes s) else respond .badParam [] s

def closeServiceRequest (s : State) : State :=
  respond .ok [] (if s.vault.windowEnd.isSome then closeWindow s else s)

def reseedRequest (set_ : Nat) (s : State) : State :=
  if 128 ≤ set_ then respond .badParam [] s else respond .ok [] (reseedSet set_ s)

/-- The latched request carried out by its code (R174, step 3). -/
def carryOut (l : List Byte) (s : State) : State :=
  match byteAt l 0 with
  | 1 => setClockRequest (be2 l 2) (be3 l 4) s
  | 2 => openServiceRequest (byteAt l 2) s
  | 3 => closeServiceRequest s
  | 4 => activateTariff (byteAt l 2) (be2 l 3) s
  | 5 => reloadConfig s
  | 6 => answerWith (ackCalls (be2 l 2) s)
  | 7 => answerWith (ackIncidents (be2 l 2) s)
  | 8 => respond .ok [] (testReport s)
  | 9 => clearBlockRequest (byteAt l 2) s
  | 10 => reseedRequest (byteAt l 2) s
  | _ => respond .badCode [] s

/-- A request begins: the image is latched, the state is WORKING, and the code is decoded (R174). -/
def takeRequest (image : List Byte) (s : State) : State :=
  let t := s.onReq fun r => { r with st := .working, latched := image }
  let code := byteAt image 0
  if code < 1 ∨ 10 < code then respond .badCode [] t
  else if s.start.phase ≠ .ready ∧ code ≠ 1 then respond .refusedState [] t
  else carryOut image t

/-- The image of a request record: code, tag and parameters (11, section 11.3). -/
def requestImage (code : Nat) (tag : Byte) (params : List Byte) : List Byte := fit 64 (b8 code :: tag :: params)

/-- A request handed to the request handler. It takes none while it is WORKING (R174), and none reaches it in RESETTING
(R157). -/
def directRequest (image : List Byte) (s : State) : State :=
  if s.start.rstHeld || s.start.phase == .resetting || s.req.st != .idle then s else settle (takeRequest image s)

end Sys2Proof.Machine
end

