-- ==== Sys2Proof/Machine/Startup.lean ====
section
/-!
DEFINITION. Start-up (10, section 10.5): the five phases and the five steps of SCANNING, what is made of each page that an own
read brings or fails to bring, and the entry into READY. Validations that a request started are served by the same reads.
-/

namespace Sys2Proof.Machine

/-! ### READY (R67, R97, R114, R181) -/

/-- The start-up phase becomes READY: the hook state and the door state are taken, and a waiting request can be granted. -/
def enterReady (s : State) : State :=
  let t := s.onStart fun x => { x with phase := .ready, step := 0 }
  let u := if t.call.hook = .off then enterParked t else t
  lineGrant (if u.vault.doorOpen then beginUnauthorised u else u)

/-! ### PURGING (R25) -/

/-- The purge begins: its first pulse starts at once, or waits while PFW is asserted. -/
def enterPurging (s : State) : State :=
  let t := s.onStart fun x => { x with phase := .purging, step := 0 }
  if s.pfw then t.onCoin fun c => { c with purgeNext := some s.now } else startPurgePulse t

/-! ### Step 5: the log scan (R147, R183) -/

/-- The sequences that no other of them is newer than. -/
def newest (l : List Nat) : List Nat := l.filter fun a => l.all fun b => !newer b a

/-- The highest accepted sequence: of several, the one in the lowest slot; of none, a free value picks (R182; log 7). -/
def highest (l : List Nat) : Nat :=
  match newest l with
  | h :: _ => h
  | [] => l.getD (Config.scanPick l % l.length) 0

/-- The sequences that are not stale: at most `span` older than `h`. DESIGN CHOICE: a sequence newer than `h`, which only a
circle of sequences leaves (log 7), counts as stale with those more than `span` older: it is left out of v and, of the ring, of
the records written again (R182, R183; log 31). -/
def fresh (span h : Nat) (l : List Nat) : List Nat := l.filter fun a => gap16 h a ≤ span

/-- A scan's counters: next sequence, newest final sequence, newest acknowledged (R92, R147). -/
def scanCounters (span : Nat) (l : List Nat) : Nat × Nat × Nat :=
  if l = [] then (0, 65535, 65535)
  else
    let h := highest l
    (next16 h, h, gap16 h (fresh span h l).length)

/-- The log scan ends: the counters are set, and SCANNING gives way to PURGING. -/
def finishLog (s : State) : State :=
  let k := scanCounters 63 s.start.log
  enterPurging ((s.onInc fun i => { i with nextLog := k.1, lastLog := k.2.1, ackedLog := k.2.2 }).onStart
    fun x => { x with log := [] })

/-- A log page has been read, or its read dropped. -/
def logPage (page : Nat) (bytes : Option (List Byte)) (s : State) : State :=
  let slot := 2 * (page - 202)
  let found := match bytes with
    | none => []
    | some p => (if logAccepts slot (p.take 32) then [be2 p 0] else [])
        ++ (if logAccepts (slot + 1) (p.drop 32) then [be2 p 32] else [])
  let t := s.onStart fun x => { x with log := x.log ++ found }
  if page < 233 then t.onStart fun x => { x with want := some (.log, page + 1) } else finishLog t

/-! ### Step 4: the ring scan (R92, R182) -/

/-- The ring counters are set, and step 5 begins. -/
def finishRing (s : State) : State :=
  let k := scanCounters 127 (s.start.ring.map (·.1))
  let t := s.onCall fun c => { c with nextSeq := k.1, lastFinal := k.2.1, ackedSeq := k.2.2 }
  let u := refreshAlmostFull (if 124 ≤ t.call.unacked then raiseReason .ringFull t else t)
  u.onStart fun x => { x with ring := [], step := 5, want := some (.log, 202) }

/-- The fresh OPEN records of the scan, in slot order. -/
def openRecords (l : List (Nat × List Byte)) : List (Nat × List Byte) :=
  let h := highest (l.map (·.1))
  l.filter fun r => gap16 h r.1 ≤ 127 && byteAt r.2 2 == 1

/-- The reads are done: each fresh OPEN record is handed over as INTERRUPTED; with none the step ends at once. -/
def rewriteRing (s : State) : State :=
  let l := openRecords s.start.ring
  let t := s.onStart fun x => { x with rewrites := l.length }
  if l = [] then finishRing t
  else l.foldl (fun u r => handRecord ⟨r.1, .rewrite, interruptedBody r.2⟩ u) t

/-- An INTERRUPTED record has left the queue, written or dropped. -/
def rewriteLeft (s : State) : State :=
  let t := s.onStart fun x => { x with rewrites := x.rewrites - 1 }
  if s.start.rewrites = 1 ∧ s.start.phase = .scanning then finishRing t else t

/-- A ring page has been read, or its read dropped. -/
def ringPage (page : Nat) (bytes : Option (List Byte)) (s : State) : State :=
  let t := match bytes with
    | none => s
    | some p => if ringAccepts (page - 74) p then s.onStart fun x => { x with ring := x.ring ++ [(be2 p 0, p)] } else s
  if page < 201 then t.onStart fun x => { x with want := some (.ring, page + 1) } else rewriteRing t

/-! ### Step 3: the active bank (R57), and the validation that a request starts (R51) -/

/-- Page D as read in step 2. -/
def pageD (s : State) : Option (List Byte) := (s.start.vaultPages.getD 3 none)

/-- The bank that page D names; a page that fails its check names none (R119). -/
def namedBank (p : Option (List Byte)) : Option Bank :=
  match p with
  | none => none
  | some l => if checkOk l then bankOf (byteAt l 0) else none

/-- The version that page D records, or 0 when it names no bank (R57). -/
def namedVersion (p : Option (List Byte)) : Nat :=
  match namedBank p, p with
  | some _, some l => be2 l 1
  | _, _ => 0

/-- Step 4 begins. -/
def beginRing (s : State) : State := s.onStart fun x => { x with step := 4, vaultPages := [], want := some (.ring, 74) }

/-- The start-up validation has succeeded: the shadows become the active ones (R57). -/
def bankValid (k : Bank) (x : Shadow) (s : State) : State :=
  beginRing (s.onTariff fun t =>
    { t with bank := k, version := x.version, shadow := x, clamped := x.clampCount, bankSet := true, check := none
             wantRead := none })

/-- The start-up validation has failed: TARIFF_FAULT, with the shadows empty (R57). -/
def bankInvalid (k : Bank) (f : Finding) (s : State) : State :=
  beginRing (raiseReason .tariffFault (s.onTariff fun t =>
    { t with bank := k, version := namedVersion (pageD s), shadow := Shadow.empty, clamped := 0, bankSet := true
             outcome := f, check := none, wantRead := none }))

/-- The end of a validation with a failing item. -/
def validationFails (v : Validation) (f : Finding) (s : State) : State :=
  match v.expected with
  | none => bankInvalid v.bank f s
  | some _ => activationFails f s

/-- The end of a validation whose checks have all passed. -/
def validationSucceeds (v : Validation) (s : State) : State :=
  match v.expected with
  | none => bankValid v.bank (shadowOf v.image) s
  | some _ => activationSucceeds (shadowOf v.image) s

/-- The next page of a validation, or the checks that follow the last. -/
def validationNext (v : Validation) (s : State) : State :=
  if v.image.length / 64 < v.pages then
    s.onTariff fun t => { t with check := some v, wantRead := some (firstPage v.bank + v.image.length / 64) }
  else match firstFail (bodyChecks v.image) with
    | some f => validationFails v f s
    | none => validationSucceeds v s

/-- A page of the bank has been read, or its read dropped (R51). -/
def bankPage (bytes : Option (List Byte)) (s : State) : State :=
  match s.tariff.check with
  | none => s
  | some v =>
    match bytes with
    | none => validationFails v ⟨1, 0, 1⟩ s
    | some p =>
      let w : Validation := { v with image := v.image ++ p }
      if v.image = [] then
        (match firstFail (headerChecks w.image w.expected) with
         | some f => validationFails w f s
         | none => validationNext { w with pages := pagesOf (usedLength w.image) } s)
      else validationNext w s

/-! ### Step 2: the vault pages (R119) -/

/-- ACCOUNT_FAULT raised with its incident; a held collection is discarded (R120). -/
def raiseAccountFault (s : State) : State :=
  openIncident .accountFault ((raiseReason .accountFault s).onVault fun v =>
    { v with held := v.held.filter fun h => decide (h = .update) })

/-- Page C is a completed collection that page B does not yet show. -/
def unfinished (c : Option (List Byte)) (pageB : List Byte) : Option (List Byte) :=
  match c with
  | none => none
  | some p => if vaultPageOk (some p) 0x2F && byteAt p 2 == 1 && newer (be2 p 0) (be2 pageB 0x2A) then some p else none

/-- The collection sequence: from page C if it is valid, else from page B if that is, else 0. -/
def startSequence (pageB pageC : Option (List Byte)) : Nat :=
  match pageC, pageB with
  | some c, b => if vaultPageOk (some c) 0x2F then be2 c 0 else (match b with
      | some l => if vaultPageOk (some l) 0x24 then be2 l 0x2A else 0
      | none => 0)
  | none, some l => if vaultPageOk (some l) 0x24 then be2 l 0x2A else 0
  | none, none => 0

/-- The epoch when pages A and B are not both valid. -/
def faultEpoch (pageA pageB : Option (List Byte)) : Nat :=
  match pageA, pageB with
  | some a, b => if vaultPageOk (some a) 0x28 then be2 a 0x2C else (match b with
      | some l => if vaultPageOk (some l) 0x24 then be2 l 0x28 else 0
      | none => 0)
  | none, some l => if vaultPageOk (some l) 0x24 then be2 l 0x28 else 0
  | none, none => 0

/-- Pages A and B are valid: the counts, the baseline and the epoch are loaded, and an unfinished collection is finished.
DESIGN CHOICE: page C is written again with the bytes 0x35 to 0x3D as read (log 31). -/
def loadVault (a b : List Byte) (c : Option (List Byte)) (s : State) : State :=
  let t := s.onVault fun v =>
    { v with
      life := pageALife a, unconfirmed := be4 a 0x24, sat := byteAt a 0x2E % 2 == 1, epoch := be2 a 0x2C
      base := pageBBase b, collSeq := startSequence (some b) c }
  match unfinished c b with
  | none => t
  | some p =>
    let u := t.onVault fun v => { v with base := v.base.add (pageCSince p) }
    handOver (.collection (p.take 62) (pageBBody (pageBNow u.vault))) u

/-- The vault reading ends (R119): the fill is computed and step 3 begins with the bank that page D names. DEDUCED: until the
validation of step 3 ends the live page shows bank A and version 0 (log 15). -/
def finishVault (s : State) : State :=
  let pages := s.start.vaultPages
  let a := pages.getD 0 none
  let b := pages.getD 1 none
  let c := pages.getD 2 none
  let t := match a, b with
    | some pa, some pb =>
      if vaultPageOk a 0x28 && vaultPageOk b 0x24 then loadVault pa pb c s
      else raiseAccountFault (s.onVault fun v => { v with epoch := faultEpoch a b, collSeq := startSequence b c })
    | _, _ => raiseAccountFault (s.onVault fun v => { v with epoch := faultEpoch a b, collSeq := startSequence b c })
  startValidation ((namedBank (pageD s)).getD .a) none
    ((recomputeFill t).onStart fun x => { x with step := 3 })

/-- A vault page has been read, or its read dropped. -/
def vaultPage (page : Nat) (bytes : Option (List Byte)) (s : State) : State :=
  let t := s.onStart fun x => { x with vaultPages := x.vaultPages ++ [bytes] }
  if page < 9 then t.onStart fun x => { x with want := some (.vault, page + 1) } else finishVault t

/-! ### Step 1: the configuration (R178, R179) -/

/-- Step 2 begins. -/
def beginVault (s : State) : State :=
  (s.onReq fun r => { r with reading := none, wantRead := none }).onStart fun x =>
    { x with step := 2, want := some (.vault, 6) }

/-- A valid block comes into force at once, the call controller being in IDLE. -/
def startConfigValid (c : Settings) (s : State) : State :=
  beginVault (takeSettings (s.onReq fun r => { r with cfg := c, defaults := false }))

/-- An invalid block leaves the defaults in force and raises CONFIG_FAULT. -/
def startConfigInvalid (f : Finding) (s : State) : State :=
  beginVault (raiseReason .configFault (s.onReq fun r => { r with outcome := f }))

/-- The validation of the block fails. -/
def configFails (f : Finding) (s : State) : State :=
  if s.req.reload = .reading then reloadFails f s else startConfigInvalid f s

/-- The validation of the block succeeds. -/
def configSucceeds (c : Settings) (s : State) : State :=
  if s.req.reload = .reading then reloadSucceeds c s else startConfigValid c s

/-- A page of the block has been read, or its read dropped. -/
def configPage (page : Nat) (bytes : Option (List Byte)) (s : State) : State :=
  match s.req.reading with
  | none => s
  | some have_ =>
    match bytes with
    | none => configFails ⟨1, 0, 1⟩ s
    | some p =>
      let block := have_ ++ p
      if page < 5 then s.onReq fun r => { r with reading := some block, wantRead := some (page + 1) }
      else match checkConfig block with
        | some f => configFails f s
        | none => configSucceeds (parseConfig block) s

/-! ### RESETTING ends, and reads are delivered -/

/-- RESETTING ends and step 1 of SCANNING begins (R181). The clock pulses that free the memory leave its pointer unknown. -/
def beginScanning (s : State) : State :=
  startConfigRead (s.onStart fun x => { x with phase := .scanning, step := 1, resettingEnd := none })

/-- The bytes of an own read, or none for a read that was dropped, go to the producer (R170, R171). -/
def deliver (for_ : ReadFor) (page : Nat) (bytes : Option (List Byte)) (s : State) : State :=
  match for_ with
  | .config => configPage page bytes s
  | .vault => vaultPage page bytes s
  | .bank => bankPage bytes s
  | .ring => ringPage page bytes s
  | .log => logPage page bytes s

end Sys2Proof.Machine
end

