-- ==== Sys2Proof/Machine/Writer.lean ====
section
/-!
DEFINITION. The record writer (09, section 9.5): what an own transaction carries, and what follows when an attempt succeeds or
fails and when an item leaves the queue.
-/

namespace Sys2Proof.Machine

/-- The limit on confirmation and on start polls (R167, R171), in ms. -/
def pollLimit : Nat := 10

/-- Attempts at one transaction (R171). -/
def attemptLimit : Nat := 3

/-- The head item leaves the queue. -/
def itemLeaves (s : State) : State :=
  s.onWriter fun w =>
    { w with queue := w.queue.tail, phase := .idle, begun := false, taken := false, part := 0, tries := 0, limit := none
             earlier := none }

/-- The request state becomes IDLE (R175). -/
def requestDone (s : State) : State := s.onReq fun r => { r with st := .idle }

/-- L becomes the sequence of a final record (R85). -/
def newestFinal (q : Nat) (s : State) : State := s.onCall fun c => { c with lastFinal := q }

/-- A call record has left the queue, written or dropped: L becomes the sequence of a final record, which a CLOSED and an
INTERRUPTED record are (R85, R182). -/
def recordLeft (r : CallRecord) (s : State) : State :=
  match r.kind with
  | .closed => newestFinal r.seq s
  | .rewrite => rewriteLeft (newestFinal r.seq s)
  | .openRec => s
  | .checkpoint => s

/-- An incident record has left the queue (R147). -/
def incidentLeft (n : Nat) (s : State) : State := s.onInc fun i => { i with lastLog := n }

/-- The producer is told that its item has been carried out. -/
def itemWritten (i : Item) (s : State) : State :=
  match i with
  | .record r => recordLeft r s
  | .incident n _ => incidentLeft n s
  | .response _ => requestDone s
  | .vaultUpdate => s
  | .collection _ _ => s
  | .bankSwitch _ _ => s
  | .read _ _ => s

/-- The producer is told that its item has been dropped, with the consequence of R171. -/
def itemDropped (i : Item) (s : State) : State :=
  let t := s.onWriter fun w => { w with dropped := bump 255 w.dropped }
  match i with
  | .record r => recordLeft r (raiseAccountFault t)
  | .vaultUpdate => raiseAccountFault t
  | .collection _ _ => raiseAccountFault t
  | .bankSwitch _ _ => raiseAccountFault (t.onTariff fun x => { x with unwritten := true })
  | .incident n _ => incidentLeft n t
  | .response _ => requestDone (t.onReq fun r => { r with lost := bump 255 r.lost })
  | .read f p => deliver f p none t

def isCollection : Item → Bool
  | .collection _ _ => true
  | _ => false

/-- The write in progress is confirmed (R170): page C of a COLLECTION is followed by page B, any other item is done. -/
def confirmWrite (s : State) : State :=
  match s.writer.queue with
  | [] => s.onWriter fun w => { w with phase := .idle, limit := none, earlier := none }
  | i :: _ =>
    if isCollection i ∧ s.writer.part = 0 then
      s.onWriter fun w => { w with phase := .idle, part := 1, tries := 0, limit := none, earlier := none }
    else itemWritten i (itemLeaves s)

/-- An attempt has failed: made again, or at the third failure the item is dropped (R171). DESIGN CHOICE: a VAULT_UPDATE stays
begun between its attempts, and what merges with a waiting one joins behind it (log 31). -/
def failAttempt (s : State) : State :=
  match s.writer.queue with
  | [] => s.onWriter fun w => { w with phase := .idle, limit := none, earlier := none }
  | i :: _ =>
    if s.writer.tries + 1 < attemptLimit then
      s.onWriter fun w => { w with phase := .idle, tries := w.tries + 1, limit := none, earlier := none }
    else itemDropped i (itemLeaves s)

/-- The transaction of an item, with the data taken and the check word formed as it begins (R170, R186). -/
def transactionOf (s : State) (i : Item) : OwnPhase :=
  match i with
  | .record r => .writing (ringAddress r.seq) (withCheck r.body)
  | .vaultUpdate => .writing 0x180 (withCheck (pageABody s.vault))
  | .collection c b => if s.writer.part = 0 then .writing 0x200 (withCheck c) else .writing 0x1C0 (withCheck b)
  | .response body => .writing 0x80 (withCheck body)
  | .bankSwitch k v => .writing 0x240 (withCheck (pageDBody k v))
  | .incident n body => .writing (logAddress n) (withCheck body)
  | .read _ p => .reading (64 * p)

/-- The memory has acknowledged: the transaction of the head item runs, with its data taken now (R170). DESIGN CHOICE: a write
begins, in the sense of R111, at this acknowledge and not with the polls before it (log 31). -/
def beginTransaction (s : State) : State :=
  match s.writer.queue with
  | [] => s.onWriter fun w => { w with phase := .idle, limit := none }
  | i :: _ => s.onWriter fun w => { w with phase := transactionOf s i, begun := true, taken := true, limit := none }

/-- The head item may start or go on while PFW is asserted only if it is in progress or a checkpoint (R172). -/
def startAllowed (s : State) : Bool :=
  match s.writer.queue with
  | [] => false
  | i :: _ => !s.pfw || s.writer.begun || isCheckpoint i

/-- The record writer may start its next transaction: none is in progress, and no host transaction runs or waits (R166). -/
def mayStart (s : State) : Bool :=
  startAllowed s && s.writer.phase == .idle && s.link.openTxn == none && s.link.held == none

/-- The next own transaction starts; unless the memory acknowledges, it is polled (R167, R170). DEDUCED: the address that this
start sends is the first poll, from which the 10 ms of R167 and R171 run (log 21). -/
def ownStart (ack : Bool) (s : State) : State :=
  if mayStart s then
    (if ack then beginTransaction s
     else s.onWriter fun w => { w with begun := true, phase := .polling, limit := some (s.now + pollLimit) })
  else s

/-- The bytes at the addresses of a write of `n` bytes from `a`, in the order in which the write stores them. -/
def bytesUnder (m : List Host.Cell) (a n : Nat) : List Byte := (List.range n).map fun i => memRead m (pageWrap a i)

/-- The stop of an own write: the bytes are stored, and the write awaits its confirmation (R159, R170). -/
def ownWriteStop (s : State) : State :=
  match s.writer.phase with
  | .writing a d =>
    (s.onLink fun l =>
      { l with mem := memStore l.mem a d, tracked := some (pageWrap a d.length), lastWriter := .own
               stopTime := s.now }).onWriter fun w =>
        { w with phase := .awaiting, limit := some (s.now + pollLimit)
                 earlier := some (a, bytesUnder s.link.mem a d.length) }
  | _ => s

/-- A write that was never confirmed leaves what stood in its place (R175, R182; log 33). -/
def unstore (s : State) : State :=
  match s.writer.earlier with
  | none => s
  | some (a, old) => s.onLink fun l => { l with mem := memStore l.mem a old }

/-- The stop of an own read: its bytes go to the producer (R159, R170). -/
def readDone (a : Nat) (s : State) : State :=
  let bytes := memLoad s.link.mem a 64
  let t := itemLeaves (s.onLink fun l => { l with tracked := some ((a + 64) % memorySize) })
  match s.writer.queue with
  | .read f p :: _ => deliver f p (some bytes) t
  | _ => t

/-- The memory's pointer when an own transaction of `n` data bytes from `a` has met a not-acknowledge and is ended with a stop
(R159). -/
def pointerAtNak (a n : Nat) : NakAt → Option Nat
  | .inAddress => none
  | .atData k => some (pageWrap a (min k (n - 1)))

/-- An own write that a reset cuts short: the memory has stored some of the bytes it had acknowledged. How many is free (R158;
log 7). -/
def tearWrite (a : Nat) (d : List Byte) (s : State) : State :=
  { (s.onLink fun l => { l with mem := memStore l.mem a (d.take (Config.tornBytes s.draws % (d.length + 1))), tracked := none })
    with draws := s.draws + 1 }

end Sys2Proof.Machine
end

