-- ==== Sys2Proof/Machine/Link.lean ====
section
/-!
DEFINITION. The controller port, the traffic guard and the memory port (09, sections 9.1 to 9.4 and 9.6): host transactions,
their classification, the veto, the snapshot, the two pointers, sharing and busy handling, and the link status.
-/

namespace Sys2Proof.Machine

/-! ### Status (R173) -/

def noMarks : Marks := ⟨false, false⟩

/-- The marks of the transaction that is running, which a repeated start may have carried on. -/
def marksNow (held : Bool) (s : State) : Marks :=
  let m := s.link.openTxn.getD noMarks
  { m with held := m.held || held }

def Marks.status (m : Marks) : LinkStatus := if m.vetoed then .vetoed else if m.held then .held else .passing

/-- The end of a transaction: by repeated start it goes on, unless that addresses another device; else its status is
recorded. -/
def endTxn (m : Marks) (e : WriteEnd) (s : State) : State :=
  if e = .repeatedStart then s.onLink fun l => { l with openTxn := some m }
  else s.onLink fun l => { l with status := m.status, openTxn := none }

/-- How a host transaction ends. -/
def HostTxn.ending : HostTxn → WriteEnd
  | .write _ _ e => e
  | .probe _ again => if again then .repeatedStart else .stop
  | .read _ _ again => if again then .repeatedStart else .stop
  | .readCurrent _ again => if again then .repeatedStart else .stop

/-- The memory's not-acknowledge of the device address relayed to the host (R167), which then ends the transaction as it ends. -/
def relayNak (m : Marks) (x : HostTxn) (s : State) : State :=
  endTxn m x.ending (s.onLink fun l => { l with held := none, hostAck := false, hostData := [] })

/-- A held host transaction released with a not-acknowledge, which ends it with a status (R167, R168). -/
def nakHost (x : LinkStatus) (s : State) : State :=
  s.onLink fun l => { l with held := none, openTxn := none, hostAck := false, hostData := [], status := x }

/-- What the host has been given: an acknowledge, and the bytes of a read. -/
def giveHost (data : List Byte) (s : State) : State := s.onLink fun l => { l with hostAck := true, hostData := data }

/-! ### Writes (R159 to R162) -/

/-- The image with the data of a write from `a` put in (R161). -/
def imageWith (image : List Byte) (a : Nat) : List Byte → Nat → List Byte
  | [], _ => image
  | v :: rest, i => imageWith (image.set (pageWrap a i % 64) v) a rest (i + 1)

/-- Some byte of a write of `n` bytes from `a` goes to the address of the request code. -/
def writesCode (a n : Nat) : Bool := (List.range n).any fun i => pageWrap a i == 0x40

/-- A passed write ended by a stop: stored, followed by both pointers, and watched for a request (R161, R174). -/
def storeHostWrite (a : Nat) (data : List Byte) (s : State) : State :=
  s.onLink fun l =>
    { l with
      mem := memStore l.mem a data
      tracked := some (pageWrap a data.length)
      hostPtr := pageWrap a data.length
      lastWriter := .host
      stopTime := s.now
      image := if a / 64 = 1 then imageWith l.image a data 0 else l.image }

/-- The request that a passed write into page 1 triggers, if it does (R161). DESIGN CHOICE: where a write wraps and writes the
code's address twice, the value it leaves there decides (log 31). -/
def triggerRequest (a : Nat) (data : List Byte) (s : State) : State :=
  if a / 64 = 1 ∧ writesCode a data.length ∧ byteAt s.link.image 0 ≠ 0 ∧ s.req.st = .idle then
    takeRequest s.link.image s
  else s

/-- The write ends in a repeated start, to whichever device. -/
def restarts : WriteEnd → Bool
  | .repeatedStart => true
  | .otherDevice => true
  | .stop => false
  | .refusedAddress => false
  | .refusedByte => false

/-- A passed write (R161). Ended by a repeated start it is taken as not written, and the pointer in the memory is unknown. -/
def passedWrite (m : Marks) (a : Nat) (data : List Byte) (e : WriteEnd) (s : State) : State :=
  if restarts e then endTxn m e (s.onLink fun l => { l with tracked := none, hostPtr := a })
  else triggerRequest a data (endTxn m e (storeHostWrite a data s))

/-- A vetoed write (R162): an address setting in the memory, and a veto at its first data byte. -/
def vetoedWrite (m : Marks) (a : Nat) (data : List Byte) (e : WriteEnd) (s : State) : State :=
  let t := s.onLink fun l =>
    { l with
      tracked := some a
      hostPtr := if restarts e then a else pageWrap a data.length
      vetoes := bump 65535 l.vetoes
      lastVetoed := a }
  endTxn { m with vetoed := true } e t

/-- An address setting: a transaction in write direction without a data byte (R159). -/
def setAddress (a : Nat) (s : State) : State := s.onLink fun l => { l with tracked := some a, hostPtr := a }

/-- A transaction in write direction broken off in its word address: the pointer in the memory is unknown (R159).
DEDUCED (log 32): the host's pointer keeps its value, as R165 says of a bus error. -/
def loseAddress (s : State) : State := s.onLink fun l => { l with tracked := none }

/-- A transaction in write direction whose word address is complete, classified by the role of its page (R160). -/
def classedWrite (m : Marks) (a : Nat) (data : List Byte) (e : WriteEnd) (s : State) : State :=
  if data = [] then endTxn m e (setAddress a s)
  else match guardRole s (a / 64) with
    | .passed => passedWrite m a data e s
    | .vetoed => vetoedWrite m a data e s

/-- The last byte that the host has sent was acknowledged. A vetoed data byte always is (R162). -/
def lastByteAcked (s : State) (a : Nat) : WriteEnd → Bool
  | .refusedAddress => false
  | .refusedByte => guardRole s (a / 64) == .vetoed
  | .stop => true
  | .repeatedStart => true
  | .otherDevice => true

/-- A host write. The memory's acknowledge or not-acknowledge of each byte is relayed to the host (R157). -/
def hostWrite (m : Marks) (a : Nat) (data : List Byte) (e : WriteEnd) (s : State) : State :=
  let t := s.onLink fun l => { l with hostAck := lastByteAcked s a e, hostData := [] }
  if e = .refusedAddress then endTxn m e (loseAddress t) else classedWrite m a data e t

/-! ### Reads (R163, R164) -/

/-- One byte of a read: page 0 from the snapshot, any other from the memory. -/
def readByte (snap : List Byte) (mem : List Host.Cell) (a : Nat) : Byte :=
  if a < 64 then snap.getD a 0 else memRead mem a

/-- `n` bytes of a read from `a`, wrapping at the end of the memory. -/
def readBytes (snap : List Byte) (mem : List Host.Cell) (a n : Nat) : List Byte :=
  (List.range n).map fun i => readByte snap mem ((a + i) % memorySize)

/-- A host read of `n` bytes from `a`: the snapshot is taken at its device address, and both pointers end behind it. -/
def hostRead (m : Marks) (a n : Nat) (e : WriteEnd) (s : State) : State :=
  let snap := livePage s
  endTxn m e (giveHost (readBytes snap s.link.mem a n) (s.onLink fun l =>
    { l with snapshot := snap, tracked := some ((a + n) % memorySize), hostPtr := (a + n) % memorySize }))

/-- A host transaction whose device address the memory has acknowledged. `held`: it was held before. -/
def perform (t : HostTxn) (held : Bool) (s : State) : State :=
  let m := marksNow held s
  match t with
  | .write a data e => hostWrite m a data e s
  | .probe none _ => endTxn m t.ending (giveHost [] s)
  | .probe (some a) _ => endTxn m t.ending (setAddress a (giveHost [] s))
  | .read a n _ => hostRead m a n t.ending s
  | .readCurrent n _ => hostRead m s.link.hostPtr n t.ending s

/-! ### Sharing and busy handling (R166, R167) -/

/-- An own transaction is being clocked. -/
def OwnPhase.running : OwnPhase → Bool
  | .writing _ _ => true
  | .reading _ => true
  | _ => false

/-- A host transaction is held at its device address. The hold timer counts on from the transaction's earlier holds (R168). -/
def holdHost (t : HostTxn) (s : State) : State :=
  s.onLink fun l =>
    { l with held := some t, holdSince := s.now, holdSum := if (l.openTxn.getD noMarks).held then l.holdSum else 0 }

/-- A held host transaction goes on. -/
def performHeld (s : State) : State :=
  match s.link.held with
  | none => s
  | some t =>
    perform t true (s.onLink fun l => { l with held := none, holdSum := l.holdSum + (s.now - l.holdSince) })

/-- A host acknowledge that confirms an own write that awaits it (R170), with all that follows in the blocks before the host
transaction reads the state (R146, R163). -/
def confirmIfAwaiting (s : State) : State := if s.writer.phase = .awaiting then settle (confirmWrite s) else s

/-- A host transaction arrives; `ack` is the memory's answer to its device address. -/
def hostArrives (t : HostTxn) (ack : Bool) (s : State) : State :=
  if s.start.phase = .resetting then s.onLink fun l => { l with hostAck := false, hostData := [] }
  else if s.link.held.isSome then s
  else if s.writer.phase.running then holdHost t s
  else if ack then perform t false (confirmIfAwaiting s)
  else if s.link.lastWriter = .own then holdHost t s
  else relayNak (marksNow false s) t s

/-- A held host transaction is forwarded when an own transaction has ended; `ack` is the memory's answer. -/
def forwardHeld (ack : Bool) (s : State) : State :=
  match s.link.held with
  | none => s
  | some t =>
    if ack then performHeld s
    else if s.link.lastWriter = .own then s
    else relayNak (marksNow true s) t s

/-- What follows when an own transaction has ended in `s`: the blocks' reactions, and then a held host transaction, which finds
them done (R146, R163, R166). -/
def resume (ack : Bool) (s : State) : State :=
  if s.link.held.isSome then settle (forwardHeld ack (settle s)) else settle s

/-- A poll of the memory's address that is acknowledged. A held host transaction goes on first (R167). -/
def pollAnswered (s : State) : State :=
  match s.writer.phase with
  | .polling =>
    settle (if s.link.held.isSome then performHeld s else if s.link.openTxn = none then beginTransaction s else s)
  | .awaiting => resume true (confirmWrite s)
  | .idle => settle (performHeld s)
  | .writing _ _ => settle s
  | .reading _ => settle s

/-- A poll of the memory's address (R167). -/
def memoryPoll (ack : Bool) (s : State) : State := if ack then pollAnswered s else settle s

/-- A host transaction held for an own write is released with a not-acknowledge (R167). -/
def releaseHost (s : State) : State := if s.link.held.isSome then nakHost (marksNow true s).status s else s

/-- MEMORY_FAULT (R167). An own write that it meets unconfirmed has failed, and what it stored is undone. -/
def takeMemoryFault (s : State) : State :=
  let t := releaseHost (s.onLink fun l => { l with memFaults := bump 255 l.memFaults, lastWriter := .none })
  match s.writer.phase with
  | .polling => failAttempt t
  | .awaiting => failAttempt (unstore t)
  | _ => t

/-- The instant at which the 10 ms of R167 run out, while something waits for them. DEDUCED: while an own transaction polls its
start, the limit is that of its start polls, also when a host transaction is held behind the last own write, whose own 10 ms
then do not count (log 21). -/
def faultTime (s : State) : Option Nat :=
  match s.writer.phase with
  | .polling => s.writer.limit
  | .awaiting => s.writer.limit
  | .idle => if s.link.held.isSome ∧ s.link.lastWriter = .own then some (s.link.stopTime + pollLimit) else none
  | _ => none

/-- An attempt at an own transaction fails on a not-acknowledge, or on the limit of its start polls (R171). Nothing of a write
that it cuts short is stored (R175, R182; log 33). -/
def ownFailure (at_ : NakAt) (ack : Bool) (s : State) : State :=
  match s.writer.phase with
  | .writing a d => resume ack (failAttempt (s.onLink fun l => { l with tracked := pointerAtNak a d.length at_ }))
  | .reading _ => resume ack (failAttempt (loseAddress s))
  | .polling => onExpiry s.writer.limit s fun t => resume ack (failAttempt t)
  | _ => settle s

/-! ### Bus errors (R165) and the limit of holds (R168) -/

/-- A passed write broken off after its complete data bytes: they are stored, and trigger nothing. -/
def brokenPassed (a : Nat) (data : List Byte) (s : State) : State :=
  s.onLink fun l =>
    { l with
      mem := memStore l.mem a data
      tracked := some (pageWrap a data.length)
      hostPtr := pageWrap a data.length
      lastWriter := if data = [] then l.lastWriter else .host
      stopTime := if data = [] then l.stopTime else s.now }

/-- A vetoed write broken off. -/
def brokenVetoed (a : Nat) (data : List Byte) (s : State) : State :=
  s.onLink fun l =>
    { l with
      tracked := some a
      hostPtr := pageWrap a data.length
      vetoes := if data = [] then l.vetoes else bump 65535 l.vetoes
      lastVetoed := if data = [] then l.lastVetoed else a }

/-- A read broken off after `n` complete bytes from `a`, which the host has been given (R163). -/
def brokenRead (a n : Nat) (s : State) : State :=
  let snap := livePage s
  (giveHost (readBytes snap s.link.mem a n) s).onLink fun l =>
    { l with snapshot := snap, tracked := some ((a + n) % memorySize), hostPtr := (a + n) % memorySize }

/-- What a bus error leaves (the rows of R165's table). The acknowledge that the memory gave to the device address before it
confirms an own write that awaits it (R170). -/
def breakOff (at_ : BrokenAt) (s : State) : State :=
  match at_ with
  | .inAddress acked => loseAddress (if acked then confirmIfAwaiting s else s)
  | .inWrite a data =>
    let t := confirmIfAwaiting s
    (match guardRole t (a.toNat / 64) with
     | .passed => brokenPassed a.toNat data t
     | .vetoed => brokenVetoed a.toNat data t)
  | .inRead (some a) n => brokenRead a.toNat n (confirmIfAwaiting s)
  | .inRead none n => brokenRead s.link.hostPtr n (confirmIfAwaiting s)

/-- A bus error: the transaction is abandoned, any hold released, and BUS_ERROR recorded. One that is held, or that meets a
running own transaction, stands at its device address, before its second word-address byte, so nothing is stored, the host
pointer is unchanged and the pointer in the memory unknown. DEDUCED: that holds whatever place the command names (log 22). -/
def busBroken (at_ : BrokenAt) (s : State) : State :=
  let t := if s.link.held.isSome || s.writer.phase.running then loseAddress s else breakOff at_ s
  t.onLink fun l => { l with held := none, openTxn := none, status := .busError }

/-- A host transaction ended by the hold limit is over: not acknowledged, or with its last byte 0xFF, and marked held. -/
def endByLimit (ack : Bool) (data : List Byte) (s : State) : State :=
  s.onLink fun l =>
    { l with hostAck := ack, hostData := data, openTxn := none, status := (marksNow true s).status }

/-- The bytes of a read that ends with 0xFF in place of the byte after the first `n`. -/
def cutRead (a n : Nat) (s : State) : State :=
  let snap := livePage s
  endByLimit true (readBytes snap s.link.mem a n ++ [255#8]) (s.onLink fun l =>
    { l with snapshot := snap, tracked := some ((a + n) % memorySize), hostPtr := (a + n + 1) % memorySize })

/-- The data bytes of a passed write put into the request-page image, if they go to page 1 (R161). -/
def imagePassed (a : Nat) (data : List Byte) (s : State) : State :=
  s.onLink fun l => { l with image := if a / 64 = 1 then imageWith l.image a data 0 else l.image }

/-- A passed write that ends with a not-acknowledge after its complete data bytes `data`. They enter the image (R161), but
trigger nothing (log 22). The data bytes of a vetoed write are acknowledged without a hold (R162). -/
def cutWrite (a : Nat) (data : List Byte) (s : State) : State :=
  match guardRole s (a / 64) with
  | .passed => endByLimit false [] (imagePassed a data (brokenPassed a data s))
  | .vetoed => s

/-- The most that the controller port holds CSCL within a transaction, in ms (R168). -/
def holdTop : Nat := 12

/-- The instant at which the holds of the held transaction add up to the limit. -/
def holdDue (l : Link) : Nat := l.holdSince + (holdTop - l.holdSum)

/-- The hold timer's limit in a transaction whose device address the memory has acknowledged. -/
def limitInside (at_ : HoldPoint) (s : State) : State :=
  match at_ with
  | .atAcknowledge => s
  | .inAddress => endByLimit false [] (loseAddress s)
  | .inWrite a data => cutWrite a.toNat data s
  | .inRead (some a) n => cutRead a.toNat n s
  | .inRead none n => cutRead s.link.hostPtr n s

/-- The sum of the holds has reached 12 ms (R168): with a host transaction held at its device address, and in one that runs. -/
def holdLimit (at_ : HoldPoint) (s : State) : State :=
  if at_ = .atAcknowledge then
    (if s.link.held.isSome then releaseHost (s.reach (holdDue s.link)) else s)
  else if s.link.held.isSome || s.writer.phase.running then s
  else limitInside at_ (confirmIfAwaiting s)

end Sys2Proof.Machine
end

