-- ==== Sys2Proof/Machine/ExecReset.lean ====
section
/-!
DEFINITION. Meanings of the reset, power-fail and clock commands: POWER_ON_RESET, RST_RESET, END_OF_RESET, RESETTING_END,
PFW_ASSERT, PFW_CLEAR, CLOCK_SECOND.
-/

namespace Sys2Proof.Machine

/-- 16 ms from the end of reset to the end of RESETTING (R181). -/
def resettingTime : Nat := 16

/-- A reset that meets an own write in progress: the memory may have stored the bytes it had acknowledged (R158). -/
def tornByReset (s : State) : State :=
  match s.writer.phase with
  | .writing a d => tearWrite a d s
  | _ => s

/-- The end of reset: the 16 ms and the line's guard start (R94, R181). -/
def endReset (s : State) : State :=
  (s.onStart fun x => { x with rstHeld := false, resettingEnd := some (s.now + resettingTime) }).onLine fun l =>
    { l with guardEnd := some (s.now + guardTime) }

/-- Every block in its state after reset. What is not a block's state stays: the memory's bytes, the levels of the door and
box inputs (R110), the time base and the queue of commands. -/
def resetBlocks (clock : Clock) (pfw held : Bool) (s : State) : State :=
  { State.reset with
    now := s.now
    clock := clock
    start := { Startup.zero with rstHeld := held }
    pfw := pfw
    line := Line.zero
    vault := { Vault.zero with doorOpen := s.vault.doorOpen, boxPresent := s.vault.boxPresent }
    link := { Link.zero with mem := s.link.mem }
    draws := s.draws
    pending := s.pending }

/-- POWER_ON_RESET (R181): every block, the station clock included, after reset; the reset lasts while the RST pin is held. -/
def execPowerOnReset (s : State) : Host.Outcome State Fault Refusal :=
  let t := resetBlocks Clock.zero false s.start.rstHeld (tornByReset s)
  complete (if s.start.rstHeld then t else endReset t)

/-- RST_RESET (R180, R181): every block but the station clock after reset, for as long as the pin is held. -/
def execRstReset (s : State) : Host.Outcome State Fault Refusal := complete (resetBlocks s.clock s.pfw true (tornByReset s))

/-- END_OF_RESET (R94, R181): the RST pin is released. -/
def execEndOfReset (s : State) : Host.Outcome State Fault Refusal :=
  complete (if s.start.rstHeld then endReset s else s)

/-- RESETTING_END (R181). -/
def execResettingEnd (s : State) : Host.Outcome State Fault Refusal :=
  complete (outOfReset s fun s =>
    if s.start.phase = .resetting then onExpiry s.start.resettingEnd s fun t => settle (beginScanning t) else s)

/-- The call is charged and has a record: a checkpoint is taken at an assertion of PFW (R93). -/
def checkpointDue (s : State) : Bool := s.call.st.charging && s.call.seq.isSome

/-- PFW_ASSERT (R23, R93). -/
def execPfwAssert (s : State) : Host.Outcome State Fault Refusal :=
  if s.pfw then complete s
  else
    let t : State := { s with pfw := true }
    complete (outOfReset t fun t => if checkpointDue t then takeCheckpoint t else t)

/-- PFW_CLEAR (R23, R25): a purge pulse that waits follows D later. -/
def execPfwClear (s : State) : Host.Outcome State Fault Refusal :=
  if s.pfw then
    let t : State := { s with pfw := false }
    complete (if t.coin.purgeNext.isSome then
      t.onCoin fun c => { c with purgeNext := some (t.now + t.req.cfg.deadTime) } else t)
  else complete s

/-- One second more, wrapping at the end of the day (R180). -/
def advanceClock (c : Clock) (due : Nat) : Clock :=
  if c.sec = 86399 then ⟨next16 c.day, 0, c.isSet, some (due + 1000)⟩ else ⟨c.day, c.sec + 1, c.isSet, some (due + 1000)⟩

/-- CLOCK_SECOND (R180). The clock goes on through a reset. -/
def execClockSecond (s : State) : Host.Outcome State Fault Refusal :=
  match s.clock.nextSecond with
  | none => complete s
  | some due => complete (if s.clock.isSet then (s.reach due).onClock fun c => advanceClock c due else s)

end Sys2Proof.Machine
end

