-- ==== Sys2Proof/Machine/ExecCoin.lean ====
section
/-!
DEFINITION. Meanings of the coin path's commands: ENTRY, VALIDATOR_STROBE, ACCEPT_END, TRANSIT_DEADLINE_EXPIRY,
FAILED_TRANSIT_RETURN, ESCIN_ACTIVE, ESCIN_INACTIVE, STRINGING_TIMEOUT, RELEASE_START, FLAP_PULSE_END, DEAD_TIME_END,
CONFIRMATION_WINDOW_EXPIRY, VAULTIN, RETURN_EVENT, PURGE_PULSE_START, PURGE_PULSE_END, PURGE_END.
-/

namespace Sys2Proof.Machine

/-! ### Entry and validation -/

/-- A transit entry in state ENTERED (R4). -/
def addTransit (s : State) : State :=
  s.onCoin fun c =>
    { c with
      transit := c.transit ++ [⟨c.nextTransit, .entered, none, some (s.now + enteredTime), false⟩]
      nextTransit := next8 c.nextTransit }

/-- ENTRY (R4): ignored before the end of the purge. -/
def execEntry (s : State) : Host.Outcome State Fault Refusal :=
  complete (outOfReset s fun s =>
    if !purgeOver s then s
    else if s.coin.transit.length < 3 then addTransit s
    else settle (openIncident .slotForced s))

/-- A strobe that finds no ENTERED entry (R5). -/
def strayStrobe (s : State) : State :=
  addDetail .slotJam (s.onCoin fun c => { c with strayStrobes := bump 255 c.strayStrobes })

/-- The oldest ENTERED entry decided, with its new deadline (R5, R6). -/
def decideTransit (st : TransitState) (cls : Option (Fin 8)) (s : State) : State :=
  s.onCoin fun c =>
    { c with
      transit := changeFirst isEntered
        (fun x => { x with st := st, cls := cls, deadline := some (s.now + transitTime) }) c.transit }

/-- ACCEPT driven active until 40 ms after the strobe (R6). -/
def driveAccept (s : State) : State :=
  (s.onPins fun p => { p with accept := true }).onCoin fun c => { c with acceptEnd := some (s.now + acceptTime) }

/-- A strobe with an ENTERED entry (R5, R6). DESIGN CHOICE: an ACCEPT that an earlier strobe has driven stays active to its own
40 ms, whatever this strobe is answered (log 31). -/
def strobeEntry (answer : StrobeAnswer) (s : State) : State :=
  match answer with
  | .reject => decideTransit .rejected none s
  | .classCode k =>
    if acceptsClass s k then driveAccept (decideTransit .accepted (some k) s) else decideTransit .diverted (some k) s

/-- VALIDATOR_STROBE (R5, R6, R24). -/
def execValidatorStrobe (answer : StrobeAnswer) (s : State) : Host.Outcome State Fault Refusal :=
  complete (outOfReset s fun s =>
    if coinPathAtRest s then s
    else if s.coin.transit.any isEntered then strobeEntry answer s else strayStrobe s)

/-- ACCEPT_END (R6). -/
def execAcceptEnd (s : State) : Host.Outcome State Fault Refusal :=
  complete (outOfReset s fun s => onExpiry s.coin.acceptEnd s fun t =>
    (t.onPins fun p => { p with accept := false }).onCoin fun c => { c with acceptEnd := none })

/-- The transit entry with a number that satisfies `p`. -/
def findTransit (p : Transit → Bool) (number : Nat) (s : State) : Option Transit :=
  s.coin.transit.find? fun x => x.number == number && p x

def removeTransit (p : Transit → Bool) (number : Nat) (s : State) : State :=
  s.onCoin fun c => { c with transit := removeFirst (fun x => x.number == number && p x) c.transit }

/-- An entry whose deadline is that of R7. -/
def isStuck (x : Transit) : Bool := isEntered x || isComing x

/-- A coin stuck in transit (R7). -/
def jamTransit (number : Nat) (s : State) : State :=
  openIncident .slotJam (raiseReason .slotJam (removeTransit isStuck number s))

/-- TRANSIT_DEADLINE_EXPIRY of the entry with this number (R7). -/
def execTransitDeadlineExpiry (number : Nat) (s : State) : Host.Outcome State Fault Refusal :=
  complete (outOfReset s fun s =>
    match findTransit isStuck number s with
    | none => s
    | some x => onExpiry x.deadline s fun t => settle (jamTransit number t))

/-- A failed transit return (R21). -/
def failReturn (number : Nat) (s : State) : State :=
  let t := removeTransit isReturning number s
  if s.coin.failedReturns + 1 < 2 then t.onCoin fun c => { c with failedReturns := c.failedReturns + 1 }
  else raiseFreezing .chuteBlocked .chuteBlocked (t.onCoin fun c => { c with failedReturns := 0 })

/-- FAILED_TRANSIT_RETURN of the entry with this number (R21). -/
def execFailedTransitReturn (number : Nat) (s : State) : Host.Outcome State Fault Refusal :=
  complete (outOfReset s fun s =>
    match findTransit isReturning number s with
    | none => s
    | some x => onExpiry x.deadline s fun t => settle (failReturn number t))

/-! ### Onto the rail -/

/-- A passage begins, bound to `x` if there is one (R8). -/
def beginPassage (x : Option Transit) (s : State) : State :=
  s.onCoin fun c =>
    { c with
      passage := some ⟨x.map (·.number), false, s.now + passageTime⟩
      transit := changeFirst isComing (fun y => { y with atSensor := true, deadline := none }) c.transit }

/-- ESCIN_ACTIVE (R8): nothing before the end of the purge. -/
def execEscinActive (s : State) : Host.Outcome State Fault Refusal :=
  complete (outOfReset s fun s =>
    if purgeOver s ∧ s.coin.passage = none then beginPassage (s.coin.transit.find? isComing) s else s)

/-- A bound passage is complete (R8). -/
def completePassage (x : Transit) (s : State) : State :=
  let t := s.onCoin fun c => { c with transit := removeFirst (fun y => y.number == x.number && y.atSensor) c.transit }
  match x.cls with
  | none => appendStray t
  | some k => if t.coin.escrow.length < 10 then coinArrives k t else stringDetail t

/-- The end of a passage (R8, R9). -/
def endPassage (p : Passage) (s : State) : State :=
  let t := s.onCoin fun c => { c with passage := none }
  if p.strung then appendStray t
  else match p.bound with
    | none => appendStray t
    | some n =>
      match findTransit (·.atSensor) n s with
      | none => appendStray t
      | some x => completePassage x t

/-- ESCIN_INACTIVE (R8, R9, R10). -/
def execEscinInactive (s : State) : Host.Outcome State Fault Refusal :=
  complete (outOfReset s fun s =>
    match s.coin.passage with
    | none => s
    | some p => settle (endPassage p s))

/-- A coin held at the sensor: its entry is removed and STRINGING opened (R9). -/
def stringCoin (p : Passage) (s : State) : State :=
  let t := match p.bound with
    | none => s
    | some n => removeTransit (·.atSensor) n s
  openIncident .stringing (t.onCoin fun c => { c with passage := some { p with bound := none, strung := true } })

/-- STRINGING_TIMEOUT (R9). -/
def execStringingTimeout (s : State) : Host.Outcome State Fault Refusal :=
  complete (outOfReset s fun s =>
    match s.coin.passage with
    | none => s
    | some p => if p.strung then s else settle (stringCoin p (s.reach p.limit)))

/-! ### Releases -/

/-- The release of the head entry starts (R14, R15). -/
def startRelease (k : Coil) (s : State) : State :=
  driveCoil (some k) (s.onCoin fun c =>
    { c with
      flap := .pulse
      inFlight := some ⟨k, false, s.now + windowTime, s.req.cfg.pulse⟩
      pulseEnd := some (s.now + s.req.cfg.pulse) })

/-- RELEASE_START (R14). -/
def execReleaseStart (s : State) : Host.Outcome State Fault Refusal :=
  complete (outOfReset s fun s =>
    match releaseReady s with
    | none => s
    | some k => startRelease k s)

/-- The coil is de-energised and the dead time starts (R15). -/
def endPulse (s : State) : State :=
  driveCoil none (s.onCoin fun c =>
    { c with
      flap := if c.inFlight.isSome then .window else .settle
      pulseEnd := none
      deadEnd := some (s.now + s.req.cfg.deadTime) })

/-- FLAP_PULSE_END (R15). -/
def execFlapPulseEnd (s : State) : Host.Outcome State Fault Refusal :=
  complete (outOfReset s fun s => onExpiry s.coin.pulseEnd s endPulse)

/-- DEAD_TIME_END (R15): in WINDOW the driver goes on waiting for its confirmation. -/
def execDeadTimeEnd (s : State) : Host.Outcome State Fault Refusal :=
  complete (outOfReset s fun s => onExpiry s.coin.deadEnd s fun t => t.onCoin fun c =>
    { c with deadEnd := none, flap := if c.flap = .settle then .idle else c.flap })

/-- The second window has run out (R18). -/
def failRelease (k : Coil) (s : State) : State :=
  match k with
  | .collect => raiseFreezing .flapFault .flapFault (abandonRelease s)
  | .return_ => raiseFreezing .chuteBlocked .chuteBlocked (abandonRelease s)

/-- CONFIRMATION_WINDOW_EXPIRY (R18). -/
def execConfirmationWindowExpiry (s : State) : Host.Outcome State Fault Refusal :=
  complete (outOfReset s fun s =>
    match s.coin.inFlight with
    | none => s
    | some r =>
      let t := s.reach r.windowEnd
      if r.retry then settle (failRelease r.coil t) else retryRelease r t)

/-- The head entry, when a release of the coil `k` is in flight. -/
def inFlightEntry (k : Coil) (s : State) : Option (InFlight × Escrow) :=
  match s.coin.inFlight, s.coin.escrow with
  | some r, x :: _ => if r.coil = k then some (r, x) else none
  | _, _ => none

/-- VAULTIN (R16, R24). -/
def execVaultin (s : State) : Host.Outcome State Fault Refusal :=
  complete (outOfReset s fun s =>
    if coinPathAtRest s then s
    else match inFlightEntry .collect s with
    | some (r, x) => settle (confirmCoin x r.retry (confirmRelease s))
    | none => s.onCoin fun c => { c with strayVault := bump 255 c.strayVault })

/-- An escrow return is confirmed (R13, R17). -/
def confirmReturn (x : Escrow) (s : State) : State :=
  let t := confirmRelease s
  if x.standing = .credit then
    let u := (refund x.value t).onCoin fun c => { c with returnAll := c.returnAll.map (· + x.value) }
    if u.coin.returnAll.isSome && !anyCredit u.coin.escrow then finishReturnAll u else u
  else t

/-- A RETURN event that matches nothing (R20). DESIGN CHOICE (log 31): the CHUTE_BLOCKED incident counts as open while its
kind has a slot in use, an ended or CLOSED_PENDING one included. -/
def unmatchedReturn (s : State) : State :=
  match s.inc.slots.get .chuteBlocked with
  | some _ => addDetail .chuteBlocked s
  | none => s.onCoin fun c => { c with strayReturns := bump 255 c.strayReturns }

/-- A RETURN event matched in the order of the expected-return list (R20). -/
def matchReturn (s : State) : State :=
  if s.coin.transit.any isReturning then
    s.onCoin fun c => { c with transit := removeFirst isReturning c.transit, failedReturns := 0 }
  else match inFlightEntry .return_ s with
    | some (_, x) => settle (confirmReturn x s)
    | none => unmatchedReturn s

/-- RETURN_EVENT (R20, R24, R25). -/
def execReturnEvent (s : State) : Host.Outcome State Fault Refusal :=
  complete (outOfReset s fun s =>
    if coinPathAtRest s then s
    else if s.start.phase = .purging ∧ s.coin.purgeStarted then s.onCoin fun c => { c with purged := bump 255 c.purged }
    else matchReturn s)

/-! ### The purge -/

/-- Purge pulses in all (R25). -/
def purgePulses : Nat := 10

/-- PURGE_PULSE_START (R25). -/
def execPurgePulseStart (s : State) : Host.Outcome State Fault Refusal :=
  complete (outOfReset s fun s =>
    if s.start.phase = .purging ∧ s.pfw = false then onExpiry s.coin.purgeNext s startPurgePulse else s)

/-- A purge pulse ends: the next follows D later, or after the tenth 800 ms of counting (R25). -/
def endPurgePulse (s : State) : State :=
  driveCoil none (s.onCoin fun c =>
    { c with
      purgePulseEnd := none
      purgeDone := c.purgeDone + 1
      purgeNext := if c.purgeDone + 1 < purgePulses then some (s.now + s.req.cfg.deadTime) else none
      purgeLast := if c.purgeDone + 1 < purgePulses then none else some (s.now + purgeTail) })

/-- PURGE_PULSE_END (R25). -/
def execPurgePulseEnd (s : State) : Host.Outcome State Fault Refusal :=
  complete (outOfReset s fun s => onExpiry s.coin.purgePulseEnd s endPurgePulse)

/-- The purge has ended: PURGING gives way to SETTLING (R25, R132). -/
def endPurge (s : State) : State :=
  startSettling ((s.onStart fun x => { x with phase := .settling }).onCoin fun c =>
    { c with purgeLast := none, purgeStarted := false, purgeDone := 0 })

/-- PURGE_END (R25). -/
def execPurgeEnd (s : State) : Host.Outcome State Fault Refusal :=
  complete (outOfReset s fun s => onExpiry s.coin.purgeLast s endPurge)

end Sys2Proof.Machine
end

