-- ==== Sys2Proof/Machine/ExecCall.lean ====
section
/-!
DEFINITION. Meanings of the commands of rating, keys and the call: CHARGING_STEP, GRACE_EXPIRY, METER_PULSE,
PIP_PATTERN_TIMER, KEY_EVENT, KEY_TAKE, SILENCE_TIMEOUT, OFF_HOOK, ON_HOOK, HANDSET_LOSS, CONT_RESTORED, GRANT_TIMEOUT,
OFFHOOK_HOLD_TIMEOUT, DEPOSIT_TIMEOUT, ANSWER_TIMEOUT, ASSUMED_ANSWER_TIMEOUT, REVERSAL_PRESENT, CLEAR_BACK,
FOLLOW_ON_WINDOW_EXPIRY.
-/

namespace Sys2Proof.Machine

/-! ### Rating -/

/-- A step of the unit timer starts, and the next is due S seconds after it (R35). -/
def unitStep (due : Nat) (x : RatingContext) (s : State) : State :=
  chargeStep x (s.onRate fun r => { r with nextStep := some (due + 1000 * x.stepLen) })

/-- CHARGING_STEP (R35, R37). -/
def execChargingStep (s : State) : Host.Outcome State Fault Refusal :=
  complete (outOfReset s fun s =>
    match s.rate.nextStep, s.rate.ctx with
    | some due, some x => if s.call.st.charging then unitStep due x (s.reach due) else s
    | _, _ => s)

/-- GRACE_EXPIRY (R40, R78). -/
def execGraceExpiry (s : State) : Host.Outcome State Fault Refusal :=
  complete (outOfReset s fun s =>
    if s.call.st = .grace then onExpiry s.rate.graceEnd s fun t => settle (enterClearing .creditExhausted t) else s)

/-- The line controller passes the signals of answer and charging (R107). -/
def signalsPass (l : Line) : Bool :=
  l.owner == .call && (l.st == .ready || l.st == .sending || l.st == .awaitAnswer || l.st == .answered)

/-- A meter pulse of a METER call: the answer in RINGING, and charged in CONNECTED and GRACE (R36, R76). -/
def meterPulse (x : RatingContext) (s : State) : State :=
  if s.call.st = .ringing then takeAnswer .pulse s
  else if s.call.st.charging ∧ x.uncharged = false then chargePulse x s
  else s

/-- METER_PULSE (R107): ignored for a call that is not of a METER band. -/
def execMeterPulse (s : State) : Host.Outcome State Fault Refusal :=
  complete (outOfReset s fun s =>
    match s.rate.ctx with
    | none => s
    | some x => if signalsPass s.line ∧ x.mode = .meter then meterPulse x s else s)

/-- How long the PIP pattern stays low: 2,000 ms or 400 ms less the active 200 ms (R44). -/
def pipLow : PipMode → Nat
  | .fast => 200
  | _ => 1800

/-- PIP_PATTERN_TIMER (R44). -/
def execPipPatternTimer (s : State) : Host.Outcome State Fault Refusal :=
  complete (outOfReset s fun s => onExpiry s.pipGen.next s fun t => t.onPipGen fun p =>
    if p.high then { p with high := false, next := some (t.now + pipLow p.mode) }
    else { p with high := true, next := some (t.now + 200) })

/-! ### Keys -/

/-- Key events the queue holds (R59). -/
def keyQueueSize : Nat := 8

/-- KEY_EVENT (R59). DESIGN CHOICE: the key waits in the queue, in every call state, until its KEY_TAKE (log 31). -/
def execKeyEvent (key : Key) (s : State) : Host.Outcome State Fault Refusal :=
  complete (outOfReset s fun s => s.onNum fun n =>
    if n.keys.length < keyQueueSize then { n with keys := n.keys ++ [key] }
    else { n with dropped := bump 255 n.dropped })

/-- KEY_TAKE (R59, R60): none is taken in SEIZING. DESIGN CHOICE: only this command takes a key, so KEY_TAKE is the moment of
R59's "as it arrives", in whatever call state it then finds (log 31). -/
def execKeyTake (s : State) : Host.Outcome State Fault Refusal :=
  complete (outOfReset s fun s =>
    match s.num.keys with
    | [] => s
    | k :: rest =>
      if s.call.st = .seizing then s else settle (handleKey k (s.onNum fun n => { n with keys := rest })))

/-- SILENCE_TIMEOUT (R64). -/
def execSilenceTimeout (s : State) : Host.Outcome State Fault Refusal :=
  complete (outOfReset s fun s =>
    if s.call.st = .collect then onExpiry s.num.silenceEnd s fun t => settle (silenceOver t) else s)

/-! ### Hook and handset -/

/-- An off-hook event (R70): in IDLE the call begins, or waits while a report owns the line. -/
def takeOffHook (s : State) : State :=
  if s.start.phase = .ready ∧ s.call.st = .idle then
    (if s.line.owner = .report then s.onCall fun c => { c with waiting := true } else lineGrant (beginSeizing s))
  else s

/-- OFF_HOOK (R67, R70). -/
def execOffHook (s : State) : Host.Outcome State Fault Refusal :=
  complete (outOfReset s fun s =>
    if s.call.hook = .off then s else settle (takeOffHook (s.onCall fun c => { c with hook := .off })))

/-- An on-hook event by the call state (R70, R71, R78, R79, R81, R82). -/
def takeOnHook (s : State) : State :=
  if s.start.phase = .ready then
    match s.call.st with
    | .idle => s.onCall fun c => { c with waiting := false }
    | .clearing => s
    | .parked => enterIdle s
    | _ => enterClearing .callerCleared s
  else s

/-- ON_HOOK (R67): it also ends the condition of OFFHOOK_HOLD (R143). -/
def execOnHook (s : State) : Host.Outcome State Fault Refusal :=
  complete (outOfReset s fun s =>
    if s.call.hook = .on then s
    else settle (takeOnHook (endCondition .offhookHold (s.onCall fun c => { c with hook := .on }))))

/-- What a handset loss does in the call (R68). -/
def loseHandset (s : State) : State :=
  match s.call.st with
  | .idle => if s.call.waiting then enterParked s else s
  | _ => clearCall .handsetLost s

/-- HANDSET_LOSS (R68): taken while the hook state is OFF. -/
def execHandsetLoss (s : State) : Host.Outcome State Fault Refusal :=
  complete (outOfReset s fun s =>
    if s.call.hook = .off then settle (loseHandset (openIncident .cordCut s)) else s)

/-- CONT_RESTORED (R143). -/
def execContRestored (s : State) : Host.Outcome State Fault Refusal :=
  complete (outOfReset s fun s => endCondition .cordCut s)

/-! ### Timers of the call -/

/-- GRANT_TIMEOUT (R71). -/
def execGrantTimeout (s : State) : Host.Outcome State Fault Refusal :=
  complete (outOfReset s fun s =>
    if s.call.st = .seizing then onExpiry s.call.grantEnd s fun t => settle (enterClearing .noDialtone t) else s)

/-- The off-hook hold timer has run out: the flag, the incident, and a waiting report (R73, R102). -/
def holdTimerOver (s : State) : State :=
  askPreempt (openIncident .offhookHold (s.onCall fun c => { c with holdFlag := true, holdEnd := none }))

/-- OFFHOOK_HOLD_TIMEOUT (R73). -/
def execOffhookHoldTimeout (s : State) : Host.Outcome State Fault Refusal :=
  complete (outOfReset s fun s =>
    if s.call.st = .collect then onExpiry s.call.holdEnd s fun t => settle (holdTimerOver t) else s)

/-- DEPOSIT_TIMEOUT (R66, R74). -/
def execDepositTimeout (s : State) : Host.Outcome State Fault Refusal :=
  complete (outOfReset s fun s =>
    if s.call.st = .awaitDeposit then
      onExpiry s.call.depositEnd s fun t => settle (enterClearing .noDeposit (countRefusal .noDeposit t))
    else s)

/-- ANSWER_TIMEOUT (R76). -/
def execAnswerTimeout (s : State) : Host.Outcome State Fault Refusal :=
  complete (outOfReset s fun s =>
    if s.call.st = .ringing then onExpiry s.call.answerEnd s fun t => settle (enterClearing .noAnswer t) else s)

/-- ASSUMED_ANSWER_TIMEOUT (R76, R77). -/
def execAssumedAnswerTimeout (s : State) : Host.Outcome State Fault Refusal :=
  complete (outOfReset s fun s =>
    if s.call.st = .ringing then onExpiry s.call.assumedEnd s fun t => takeAnswer .assumed t else s)

/-- FOLLOW_ON_WINDOW_EXPIRY (R79). -/
def execFollowOnWindowExpiry (s : State) : Host.Outcome State Fault Refusal :=
  complete (outOfReset s fun s =>
    if s.call.st = .afterCall then onExpiry s.call.followEnd s fun t => settle (enterClearing .farCleared t) else s)

/-! ### Signals of the line -/

/-- REVERSAL_PRESENT (R76, R77, R107). -/
def execReversalPresent (s : State) : Host.Outcome State Fault Refusal :=
  complete (outOfReset s fun s =>
    if signalsPass s.line ∧ s.line.reversal = false then
      let t := s.onLine fun l => { l with reversal := true }
      if s.call.st = .ringing then takeAnswer .reversal t else t
    else s)

/-- CLEAR_BACK (R78, R107). On an UNSUPERVISED line an answered call stays in CONNECTED or GRACE (R78). DESIGN CHOICE: the
reversal of such a line becomes unqualified all the same (log 31). -/
def execClearBack (s : State) : Host.Outcome State Fault Refusal :=
  complete (outOfReset s fun s =>
    if signalsPass s.line ∧ s.line.reversal then
      let t := s.onLine fun l => { l with reversal := false }
      if s.call.st.charging ∧ s.req.cfg.supervision = .supervised then enterAfterCall t else t
    else s)

end Sys2Proof.Machine
end

