-- ==== Sys2Proof/Machine/ExecLine.lean ====
section
/-!
DEFINITION. Meanings of the line's and the report dialler's commands: GUARD_END, DIAL_TONE_QUALIFIED, DIAL_TONE_TIMEOUT,
LOOP_LOSS, TONE_ON_END, TONE_OFF_END, DECADIC_BREAK_END, DECADIC_MAKE_END, INTER_DIGIT_PAUSE_END, ACKTONE_DETECTION,
QUIET_TIMEOUT, RETRY_TIMEOUT, READY_TONE_TIMEOUT, KISSOFF_TIMEOUT.
-/

namespace Sys2Proof.Machine

/-! ### Guard, dial tone and loop -/

/-- GUARD_END (R97, R101). -/
def execGuardEnd (s : State) : Host.Outcome State Fault Refusal :=
  complete (outOfReset s fun s =>
    if s.line.st = .guarding then onExpiry s.line.guardEnd s fun t => settle (endGuard t) else s)

/-- DIAL_TONE_QUALIFIED (R99). -/
def execDialToneQualified (s : State) : Host.Outcome State Fault Refusal :=
  complete (outOfReset s fun s => if s.line.st = .seizing then settle (lineReady s) else s)

/-- DIAL_TONE_TIMEOUT (R99). -/
def execDialToneTimeout (s : State) : Host.Outcome State Fault Refusal :=
  complete (outOfReset s fun s =>
    if s.line.st = .seizing then onExpiry s.line.dialToneEnd s fun t => settle (seizureFailed t) else s)

/-- LOOP_LOSS (R100). -/
def execLoopLoss (s : State) : Host.Outcome State Fault Refusal := complete (outOfReset s fun s => settle (loopLost s))

/-! ### The sender -/

/-- TONE_ON_END (R104): the code stays to the end of the off-time. -/
def execToneOnEnd (s : State) : Host.Outcome State Fault Refusal :=
  complete (outOfReset s fun s =>
    if s.line.phase = .toneOn then
      onExpiry s.line.phaseEnd s fun t => (t.onPins fun p => { p with toneOn := false }).onLine fun l =>
        { l with phase := .toneOff, phaseEnd := some (t.now + l.tOff) }
    else s)

/-- TONE_OFF_END (R103, R104). -/
def execToneOffEnd (s : State) : Host.Outcome State Fault Refusal :=
  complete (outOfReset s fun s =>
    if s.line.phase = .toneOff then onExpiry s.line.phaseEnd s fun t => tellSent (completeDigit t) else s)

/-- DECADIC_BREAK_END (R105). -/
def execDecadicBreakEnd (s : State) : Host.Outcome State Fault Refusal :=
  complete (outOfReset s fun s =>
    if s.line.phase = .breaking then
      onExpiry s.line.phaseEnd s fun t => (setSeize true t).onLine fun l =>
        { l with phase := .making, phaseEnd := some (t.now + makeTime) }
    else s)

/-- A make has ended: the next break of the digit, or the end of the digit (R105). -/
def endMake (s : State) : State :=
  if 1 < s.line.breaks then startBreak (s.onLine fun l => { l with breaks := l.breaks - 1 })
  else tellSent (completeDigit s)

/-- DECADIC_MAKE_END (R103, R105). -/
def execDecadicMakeEnd (s : State) : Host.Outcome State Fault Refusal :=
  complete (outOfReset s fun s =>
    if s.line.phase = .making then onExpiry s.line.phaseEnd s endMake else s)

/-- INTER_DIGIT_PAUSE_END (R105). -/
def execInterDigitPauseEnd (s : State) : Host.Outcome State Fault Refusal :=
  complete (outOfReset s fun s =>
    if s.line.phase = .pause then onExpiry s.line.phaseEnd s startDigit else s)

/-! ### Reports and incidents -/

/-- ACKTONE_DETECTION (R108, R152, R154). -/
def execAcktoneDetection (s : State) : Host.Outcome State Fault Refusal :=
  complete (outOfReset s fun s => settle (acktone s))

/-- The quiet deadline of a slot has run out (R144). -/
def closeSlot (k : IncidentKind) (x : Slot) (s : State) : State :=
  putSlot k (some { x with quietEnd := none, closedPending := true }) s

/-- QUIET_TIMEOUT of this kind (R144, R146). -/
def execQuietTimeout (k : IncidentKind) (s : State) : Host.Outcome State Fault Refusal :=
  complete (outOfReset s fun s =>
    match s.inc.slots.get k with
    | none => s
    | some x => if x.active then s else onExpiry x.quietEnd s fun t => settle (closeSlot k x t))

/-- RETRY_TIMEOUT (R155). -/
def execRetryTimeout (s : State) : Host.Outcome State Fault Refusal :=
  complete (outOfReset s fun s =>
    if s.dial.st = .retryWait then onExpiry s.dial.retryEnd s fun t => settle (attemptBegin t) else s)

/-- READY_TONE_TIMEOUT (R152, R155). -/
def execReadyToneTimeout (s : State) : Host.Outcome State Fault Refusal :=
  complete (outOfReset s fun s =>
    if s.dial.st = .awaitReady then onExpiry s.dial.handEnd s fun t => settle (attemptFail .noReadyTone t) else s)

/-- KISSOFF_TIMEOUT (R154, R155). -/
def execKissoffTimeout (s : State) : Host.Outcome State Fault Refusal :=
  complete (outOfReset s fun s =>
    if s.dial.st = .awaitKissoff then onExpiry s.dial.handEnd s fun t => settle (attemptFail .noKissoff t) else s)

end Sys2Proof.Machine
end

