-- ==== Sys2Proof/Machine/ExecVault.lean ====
section
/-!
DEFINITION. Meanings of the vault's and the tamper sensing unit's commands: DOOR_OPEN, DOOR_CLOSE, BOX_EVENT,
SERVICE_WINDOW_EXPIRY, TAMPER_SCAN, HALT_TIMEOUT, CONTEXT_SETTLING_EXPIRY, LOITER_TIMEOUT.
-/

namespace Sys2Proof.Machine

/-! ### Door, box and window -/

/-- The door opens with the window open (R114). -/
def beginAuthorised (s : State) : State :=
  s.onVault fun v =>
    { v with session := .authorised, openedAt := s.now, overtime := false
             boxPhase := if v.boxPresent then .inPlace else .out }

/-- A debounced door opening from READY onward (R114). -/
def openDoor (s : State) : State :=
  if s.vault.windowEnd.isSome then beginAuthorised s else beginUnauthorised s

/-- DOOR_OPEN (R114): before READY the door state alone follows. -/
def execDoorOpen (s : State) : Host.Outcome State Fault Refusal :=
  complete (outOfReset s fun s =>
    if s.vault.doorOpen then s
    else
      let t := s.onVault fun v => { v with doorOpen := true }
      if s.start.phase = .ready then settle (openDoor t) else t)

/-- The end of a session by its kind and phase (R117). -/
def endSession (s : State) : State :=
  match s.vault.session with
  | .closed => s
  | .authorised => if s.vault.boxPhase = .exchanged then completeCollection s else s
  | .unauthorised => endCondition .vaultOpen s

/-- A debounced door close from READY onward (R117). -/
def closeDoor (s : State) : State :=
  (endOvertime (endSession s)).onVault fun v => { v with session := .closed, boxPhase := .inPlace }

/-- DOOR_CLOSE (R117). -/
def execDoorClose (s : State) : Host.Outcome State Fault Refusal :=
  complete (outOfReset s fun s =>
    if s.vault.doorOpen then
      let t := s.onVault fun v => { v with doorOpen := false }
      if s.start.phase = .ready then settle (closeDoor t) else t
    else s)

/-- The box phase after a removal or a replacement (R115). -/
def nextBoxPhase (present : Bool) (x : BoxPhase) : BoxPhase :=
  if present then (if x = .out then .exchanged else x) else .out

/-- A box event within a session (R115). -/
def boxInSession (present : Bool) (s : State) : State :=
  match s.vault.session with
  | .closed => s
  | .authorised => s.onVault fun v => { v with boxPhase := nextBoxPhase present v.boxPhase }
  | .unauthorised => if present then s else addDetail .vaultOpen s

/-- BOX_EVENT (R115): a removal, or a replacement when `present`. -/
def execBoxEvent (present : Bool) (s : State) : Host.Outcome State Fault Refusal :=
  complete (outOfReset s fun s =>
    if s.vault.boxPresent = present then s
    else boxInSession present (s.onVault fun v => { v with boxPresent := present }))

/-- SERVICE_WINDOW_EXPIRY (R113, R116). -/
def execServiceWindowExpiry (s : State) : Host.Outcome State Fault Refusal :=
  complete (outOfReset s fun s => onExpiry s.vault.windowEnd s fun t => settle (closeWindow t))

/-! ### Tamper sensing -/

/-- The instant at which the next scan completes (R124, R137). -/
def scanDue (s : State) : Option Nat := s.tamper.lastScan.map (· + s.req.cfg.scanInterval)

/-- A scan, and READY when it was the eighth of settling (R132, R181). -/
def takeScan (raw : List (BitVec 16)) (s : State) : State :=
  let t := scan raw s
  if s.tamper.settling = .settling ∧ t.tamper.settling = .running then enterReady t else t

/-- TAMPER_SCAN (R124). -/
def execTamperScan (raw : List (BitVec 16)) (s : State) : Host.Outcome State Fault Refusal :=
  complete (outOfReset s fun s => onExpiry (scanDue s) s fun t => settle (takeScan raw t))

/-- HALT_TIMEOUT of this channel (R130). -/
def execHaltTimeout (channel : Fin 6) (s : State) : Host.Outcome State Fault Refusal :=
  complete (outOfReset s fun s =>
    match (s.tamper.ch.get channel).haltStart with
    | none => s
    | some t => settle (reseedChannel channel (s.reach (t + 1000 * s.req.cfg.haltLimit))))

/-- CONTEXT_SETTLING_EXPIRY (R134). -/
def execContextSettlingExpiry (s : State) : Host.Outcome State Fault Refusal :=
  complete (outOfReset s fun s => onExpiry s.tamper.settleEnd s fun t => settle (settleContext t))

/-- LOITER_TIMEOUT (R136). -/
def execLoiterTimeout (s : State) : Host.Outcome State Fault Refusal :=
  complete (outOfReset s fun s =>
    match s.tamper.loiter with
    | .running t => settle (probeTrigger (s.reach (t + 1000 * s.req.cfg.loiter)))
    | .stopped => s
    | .reached => s)

end Sys2Proof.Machine
end

