-- ==== Sys2Proof/Machine/ExecRequest.lean ====
section
/-!
DEFINITION. Meanings of the ten requests, each handed to the request handler with its tag and parameters (R174; log 12).
-/

namespace Sys2Proof.Machine

/-- SET_CLOCK (R176, R180). -/
def execSetClock (tag : Byte) (day : BitVec 16) (sec : BitVec 24) (s : State) : Host.Outcome State Fault Refusal :=
  complete (directRequest (requestImage 1 tag (w16 day.toNat ++ w24 sec.toNat)) s)

/-- OPEN_SERVICE (R113, R176). -/
def execOpenService (tag minutes : Byte) (s : State) : Host.Outcome State Fault Refusal :=
  complete (directRequest (requestImage 2 tag [minutes]) s)

/-- CLOSE_SERVICE (R113, R176). -/
def execCloseService (tag : Byte) (s : State) : Host.Outcome State Fault Refusal :=
  complete (directRequest (requestImage 3 tag []) s)

/-- ACTIVATE_TARIFF (R55). -/
def execActivateTariff (tag bank : Byte) (version : BitVec 16) (s : State) : Host.Outcome State Fault Refusal :=
  complete (directRequest (requestImage 4 tag (bank :: w16 version.toNat)) s)

/-- RELOAD_CONFIG (R179). -/
def execReloadConfig (tag : Byte) (s : State) : Host.Outcome State Fault Refusal :=
  complete (directRequest (requestImage 5 tag []) s)

/-- ACK_CALLS (R91). -/
def execAckCalls (tag : Byte) (q : BitVec 16) (s : State) : Host.Outcome State Fault Refusal :=
  complete (directRequest (requestImage 6 tag (w16 q.toNat)) s)

/-- ACK_INCIDENTS (R148). -/
def execAckIncidents (tag : Byte) (q : BitVec 16) (s : State) : Host.Outcome State Fault Refusal :=
  complete (directRequest (requestImage 7 tag (w16 q.toNat)) s)

/-- TEST_REPORT (R150). -/
def execTestReport (tag : Byte) (s : State) : Host.Outcome State Fault Refusal :=
  complete (directRequest (requestImage 8 tag []) s)

/-- CLEAR_BLOCK (R177). -/
def execClearBlock (tag reason : Byte) (s : State) : Host.Outcome State Fault Refusal :=
  complete (directRequest (requestImage 9 tag [reason]) s)

/-- RESEED_TAMPER (R131, R176). -/
def execReseedTamper (tag channels : Byte) (s : State) : Host.Outcome State Fault Refusal :=
  complete (directRequest (requestImage 10 tag [channels]) s)

end Sys2Proof.Machine
end

