-- ==== Sys2Proof/Machine/ExecLink.lean ====
section
/-!
DEFINITION. Meanings of the memory link's commands: the host's transactions HOST_PASSED_WRITE, HOST_VETOED_WRITE,
HOST_ADDRESS_PROBE, HOST_RANDOM_READ, HOST_CURRENT_ADDRESS_READ, with BUS_ERROR and CLOCK_HOLD_LIMIT, and the record writer's
OWN_TRANSACTION_START, OWN_WRITE_STOP, OWN_WRITE_CONFIRMED, OWN_READ_COMPLETE, MEMORY_POLL, MEMORY_FAULT,
OWN_ATTEMPT_FAILURE.
-/

namespace Sys2Proof.Machine

/-! ### Host transactions -/

/-- The word address lies in the memory. -/
def inMemory (a : Addr) : Bool := a.toNat < memorySize

/-- A host transaction that names word address `a`. From the end of RESETTING an address that the memory does not have faults
(log 9). -/
def addressed (a : Addr) (s : State) (f : State → State) : Host.Outcome State Fault Refusal :=
  if s.start.phase ≠ .resetting ∧ inMemory a = false then .fault .hostAddressOutsideMemory else complete (f s)

/-- HOST_PASSED_WRITE (R160, R161). -/
def execHostPassedWrite (a : Addr) (data : List Byte) (ending : WriteEnd) (ack : Bool) (s : State) :
    Host.Outcome State Fault Refusal :=
  addressed a s fun s => settle (hostArrives (.write a.toNat data ending) ack s)

/-- HOST_VETOED_WRITE (R160, R162). -/
def execHostVetoedWrite (a : Addr) (data : List Byte) (ending : WriteEnd) (ack : Bool) (s : State) :
    Host.Outcome State Fault Refusal :=
  addressed a s fun s => settle (hostArrives (.write a.toNat data ending) ack s)

/-- HOST_ADDRESS_PROBE (R159, R167). -/
def execHostAddressProbe (a : Option Addr) (c : HostCourse) (s : State) : Host.Outcome State Fault Refusal :=
  match a with
  | none => complete (settle (hostArrives (.probe none c.again) c.ack s))
  | some x => addressed x s fun s => settle (hostArrives (.probe (some x.toNat) c.again) c.ack s)

/-- HOST_RANDOM_READ (R163). -/
def execHostRandomRead (a : Addr) (n : Nat) (c : HostCourse) (s : State) : Host.Outcome State Fault Refusal :=
  addressed a s fun s => settle (hostArrives (.read a.toNat n c.again) c.ack s)

/-- HOST_CURRENT_ADDRESS_READ (R164). -/
def execHostCurrentAddressRead (n : Nat) (c : HostCourse) (s : State) : Host.Outcome State Fault Refusal :=
  complete (settle (hostArrives (.readCurrent n c.again) c.ack s))

/-- A command about a host transaction that the controller port takes part in. -/
def whileRelaying (s : State) (f : State → State) : State := if s.start.phase = .resetting then s else f s

/-- BUS_ERROR (R165). -/
def execBusError (at_ : BrokenAt) (s : State) : Host.Outcome State Fault Refusal :=
  match at_ with
  | .inAddress acked => complete (whileRelaying s fun s => settle (busBroken (.inAddress acked) s))
  | .inWrite a data => addressed a s fun s => whileRelaying s fun s => settle (busBroken (.inWrite a data) s)
  | .inRead (some a) n => addressed a s fun s => whileRelaying s fun s => settle (busBroken (.inRead (some a) n) s)
  | .inRead none n => complete (whileRelaying s fun s => settle (busBroken (.inRead none n) s))

/-- CLOCK_HOLD_LIMIT (R168). -/
def execClockHoldLimit (at_ : HoldPoint) (s : State) : Host.Outcome State Fault Refusal :=
  match at_ with
  | .atAcknowledge => complete (whileRelaying s fun s => holdLimit .atAcknowledge s)
  | .inAddress => complete (whileRelaying s fun s => settle (holdLimit .inAddress s))
  | .inWrite a data => addressed a s fun s => whileRelaying s fun s => settle (holdLimit (.inWrite a data) s)
  | .inRead (some a) n => addressed a s fun s => whileRelaying s fun s => settle (holdLimit (.inRead (some a) n) s)
  | .inRead none n => complete (whileRelaying s fun s => settle (holdLimit (.inRead none n) s))

/-! ### Own transactions -/

/-- OWN_TRANSACTION_START (R166, R170, R172). -/
def execOwnTransactionStart (ack : Bool) (s : State) : Host.Outcome State Fault Refusal :=
  complete (outOfReset s fun s => ownStart ack s)

/-- OWN_WRITE_STOP (R159, R170). -/
def execOwnWriteStop (s : State) : Host.Outcome State Fault Refusal := complete (outOfReset s fun s => ownWriteStop s)

/-- OWN_WRITE_CONFIRMED (R167, R170): a held host transaction goes on. -/
def execOwnWriteConfirmed (s : State) : Host.Outcome State Fault Refusal :=
  complete (outOfReset s fun s =>
    if s.writer.phase = .awaiting then resume true (confirmWrite s) else s)

/-- OWN_READ_COMPLETE (R166, R170): a held host transaction goes next. -/
def execOwnReadComplete (s : State) : Host.Outcome State Fault Refusal :=
  complete (outOfReset s fun s =>
    match s.writer.phase with
    | .reading a => resume true (readDone a s)
    | _ => s)

/-- MEMORY_POLL (R167). -/
def execMemoryPoll (ack : Bool) (s : State) : Host.Outcome State Fault Refusal :=
  complete (outOfReset s (memoryPoll ack))

/-- MEMORY_FAULT (R167, R171). -/
def execMemoryFault (s : State) : Host.Outcome State Fault Refusal :=
  complete (outOfReset s fun s => onExpiry (faultTime s) s fun t => settle (takeMemoryFault t))

/-- OWN_ATTEMPT_FAILURE (R171). -/
def execOwnAttemptFailure (x : OwnNak) (s : State) : Host.Outcome State Fault Refusal :=
  complete (outOfReset s (ownFailure x.at_ x.ack))

end Sys2Proof.Machine
end

