-- ==== Sys2Proof/Machine/Dispatch.lean ====
section
/-! DEFINITION. The dispatch: one arm per command, each a direct call of its meaning. -/

namespace Sys2Proof.Machine

def exec (i : Instr) (s : State) : Host.Outcome State Fault Refusal :=
  match i with
  | .powerOnReset => Sys2Proof.Machine.execPowerOnReset s
  | .rstReset => Sys2Proof.Machine.execRstReset s
  | .resettingEnd => Sys2Proof.Machine.execResettingEnd s
  | .pfwAssert => Sys2Proof.Machine.execPfwAssert s
  | .pfwClear => Sys2Proof.Machine.execPfwClear s
  | .clockSecond => Sys2Proof.Machine.execClockSecond s
  | .entry => Sys2Proof.Machine.execEntry s
  | .validatorStrobe answer => Sys2Proof.Machine.execValidatorStrobe answer s
  | .acceptEnd => Sys2Proof.Machine.execAcceptEnd s
  | .transitDeadlineExpiry number => Sys2Proof.Machine.execTransitDeadlineExpiry number s
  | .failedTransitReturn number => Sys2Proof.Machine.execFailedTransitReturn number s
  | .escinActive => Sys2Proof.Machine.execEscinActive s
  | .escinInactive => Sys2Proof.Machine.execEscinInactive s
  | .stringingTimeout => Sys2Proof.Machine.execStringingTimeout s
  | .releaseStart => Sys2Proof.Machine.execReleaseStart s
  | .flapPulseEnd => Sys2Proof.Machine.execFlapPulseEnd s
  | .deadTimeEnd => Sys2Proof.Machine.execDeadTimeEnd s
  | .confirmationWindowExpiry => Sys2Proof.Machine.execConfirmationWindowExpiry s
  | .vaultin => Sys2Proof.Machine.execVaultin s
  | .returnEvent => Sys2Proof.Machine.execReturnEvent s
  | .purgePulseStart => Sys2Proof.Machine.execPurgePulseStart s
  | .purgePulseEnd => Sys2Proof.Machine.execPurgePulseEnd s
  | .purgeEnd => Sys2Proof.Machine.execPurgeEnd s
  | .chargingStep => Sys2Proof.Machine.execChargingStep s
  | .graceExpiry => Sys2Proof.Machine.execGraceExpiry s
  | .meterPulse => Sys2Proof.Machine.execMeterPulse s
  | .pipPatternTimer => Sys2Proof.Machine.execPipPatternTimer s
  | .activateTariff tag bank version => Sys2Proof.Machine.execActivateTariff tag bank version s
  | .keyEvent key => Sys2Proof.Machine.execKeyEvent key s
  | .keyTake => Sys2Proof.Machine.execKeyTake s
  | .silenceTimeout => Sys2Proof.Machine.execSilenceTimeout s
  | .offHook => Sys2Proof.Machine.execOffHook s
  | .onHook => Sys2Proof.Machine.execOnHook s
  | .handsetLoss => Sys2Proof.Machine.execHandsetLoss s
  | .grantTimeout => Sys2Proof.Machine.execGrantTimeout s
  | .offhookHoldTimeout => Sys2Proof.Machine.execOffhookHoldTimeout s
  | .depositTimeout => Sys2Proof.Machine.execDepositTimeout s
  | .answerTimeout => Sys2Proof.Machine.execAnswerTimeout s
  | .assumedAnswerTimeout => Sys2Proof.Machine.execAssumedAnswerTimeout s
  | .reversalPresent => Sys2Proof.Machine.execReversalPresent s
  | .clearBack => Sys2Proof.Machine.execClearBack s
  | .followOnWindowExpiry => Sys2Proof.Machine.execFollowOnWindowExpiry s
  | .ackCalls tag seq => Sys2Proof.Machine.execAckCalls tag seq s
  | .guardEnd => Sys2Proof.Machine.execGuardEnd s
  | .dialToneQualified => Sys2Proof.Machine.execDialToneQualified s
  | .dialToneTimeout => Sys2Proof.Machine.execDialToneTimeout s
  | .loopLoss => Sys2Proof.Machine.execLoopLoss s
  | .toneOnEnd => Sys2Proof.Machine.execToneOnEnd s
  | .toneOffEnd => Sys2Proof.Machine.execToneOffEnd s
  | .decadicBreakEnd => Sys2Proof.Machine.execDecadicBreakEnd s
  | .decadicMakeEnd => Sys2Proof.Machine.execDecadicMakeEnd s
  | .interDigitPauseEnd => Sys2Proof.Machine.execInterDigitPauseEnd s
  | .acktoneDetection => Sys2Proof.Machine.execAcktoneDetection s
  | .doorOpen => Sys2Proof.Machine.execDoorOpen s
  | .doorClose => Sys2Proof.Machine.execDoorClose s
  | .boxEvent present => Sys2Proof.Machine.execBoxEvent present s
  | .serviceWindowExpiry => Sys2Proof.Machine.execServiceWindowExpiry s
  | .openService tag minutes => Sys2Proof.Machine.execOpenService tag minutes s
  | .closeService tag => Sys2Proof.Machine.execCloseService tag s
  | .clearBlock tag reason => Sys2Proof.Machine.execClearBlock tag reason s
  | .tamperScan raw => Sys2Proof.Machine.execTamperScan raw s
  | .haltTimeout channel => Sys2Proof.Machine.execHaltTimeout channel s
  | .reseedTamper tag channels => Sys2Proof.Machine.execReseedTamper tag channels s
  | .contextSettlingExpiry => Sys2Proof.Machine.execContextSettlingExpiry s
  | .loiterTimeout => Sys2Proof.Machine.execLoiterTimeout s
  | .contRestored => Sys2Proof.Machine.execContRestored s
  | .quietTimeout kind => Sys2Proof.Machine.execQuietTimeout kind s
  | .ackIncidents tag seq => Sys2Proof.Machine.execAckIncidents tag seq s
  | .testReport tag => Sys2Proof.Machine.execTestReport tag s
  | .retryTimeout => Sys2Proof.Machine.execRetryTimeout s
  | .readyToneTimeout => Sys2Proof.Machine.execReadyToneTimeout s
  | .kissoffTimeout => Sys2Proof.Machine.execKissoffTimeout s
  | .hostPassedWrite addr data ending ack => Sys2Proof.Machine.execHostPassedWrite addr data ending ack s
  | .hostVetoedWrite addr data ending ack => Sys2Proof.Machine.execHostVetoedWrite addr data ending ack s
  | .hostAddressProbe addr course => Sys2Proof.Machine.execHostAddressProbe addr course s
  | .hostRandomRead addr n course => Sys2Proof.Machine.execHostRandomRead addr n course s
  | .hostCurrentAddressRead n course => Sys2Proof.Machine.execHostCurrentAddressRead n course s
  | .busError at_ => Sys2Proof.Machine.execBusError at_ s
  | .clockHoldLimit at_ => Sys2Proof.Machine.execClockHoldLimit at_ s
  | .ownTransactionStart ack => Sys2Proof.Machine.execOwnTransactionStart ack s
  | .ownWriteConfirmed => Sys2Proof.Machine.execOwnWriteConfirmed s
  | .ownReadComplete => Sys2Proof.Machine.execOwnReadComplete s
  | .memoryPoll ack => Sys2Proof.Machine.execMemoryPoll ack s
  | .memoryFault => Sys2Proof.Machine.execMemoryFault s
  | .ownAttemptFailure x => Sys2Proof.Machine.execOwnAttemptFailure x s
  | .setClock tag day seconds => Sys2Proof.Machine.execSetClock tag day seconds s
  | .reloadConfig tag => Sys2Proof.Machine.execReloadConfig tag s
  | .endOfReset => Sys2Proof.Machine.execEndOfReset s
  | .ownWriteStop => Sys2Proof.Machine.execOwnWriteStop s

end Sys2Proof.Machine
end

