-- ==== Sys2Proof/Machine/Step.lean ====
section
/-!
DEFINITION. One step: the command at the front of the queue, or, with an empty queue, a millisecond of the time base (log 2).
-/

namespace Sys2Proof.Machine

/-- The queue with its front taken. -/
def State.withPending (s : State) (l : List Instr) : State := { s with pending := l }

/-- The block idles: a millisecond of the internal time base passes (log 2). -/
def idle (s : State) : State := { s with now := s.now + 1 }

def step (s : State) : Host.Outcome State Fault Refusal :=
  match s.pending with
  | [] => .next (idle s)
  | c :: rest => exec c (s.withPending rest)

/-- The command that the word spells is put at the front of the queue; a word that spells none changes nothing. -/
def State.withFetchWord (s : State) (nbits w : Nat) : State :=
  match decodeTableWord nbits w with
  | none => s
  | some c => s.withPending (c :: s.pending)

end Sys2Proof.Machine
end

