-- ==== Sys2Proof/Safety.lean ====
section
/-!
DEFINITION. What a safe state is, in the terms the statements use: the pins follow their rules, the memory keeps its form, no
bounded collection overflows, and never both flap coils are energised.
-/

namespace Sys2Proof.Machine

/-- SLOTGATE, MUTE and PIP stand as R2, R44 and R109 say. -/
def pinsFollow (s : State) : Prop :=
  s.pins.slotGate = gateRule s ∧ s.pins.mute = muteRule s.line ∧ s.pins.pip = pipRule s

/-- The COLLECT and RETURN coils are not energised together (R15). -/
def oneCoil (s : State) : Prop := ¬ (s.pins.flapC = true ∧ s.pins.flapR = true)

/-- A write in progress begins within the memory. -/
def OwnPhase.inMemory : OwnPhase → Bool
  | .writing a _ => a < memorySize
  | _ => true

/-- A write in progress, and one that awaits its confirmation, begin within the memory. -/
def RecordWriter.inMemory (w : RecordWriter) : Bool :=
  w.phase.inMemory && (match w.earlier with | none => true | some x => decide (x.1 < memorySize))

/-- A host transaction names addresses of the memory only. -/
def HostTxn.inMemory : HostTxn → Bool
  | .write a _ _ => a < memorySize
  | .probe (some a) _ => a < memorySize
  | .read a _ _ => a < memorySize
  | _ => true

/-- The host transaction that is held, if one is, names addresses of the memory only. -/
def heldInMemory : Option HostTxn → Bool
  | none => true
  | some t => t.inMemory

/-- The memory has its canonical form, and what is about to be stored in it lies within it. -/
def memoryOk (s : State) : Prop :=
  memWf s.link.mem = true ∧ s.writer.inMemory = true ∧ heldInMemory s.link.held = true

/-- Every producer has at most its quota of items in the own-write queue (R169). -/
def quotasKept (q : List Item) : Prop := ∀ p : Producer, itemsOf p q ≤ p.quota

/-- No bounded collection holds more than its rule allows: 3 transit entries (R3), 10 escrow entries (R11), 8 keys (R59),
20 digits (R61), 80 digits in the sender (R103), 12 items in the own-write queue, of each producer its quota (R169). -/
def withinCapacity (s : State) : Prop :=
  s.coin.transit.length ≤ 3 ∧ s.coin.escrow.length ≤ 10 ∧ s.num.keys.length ≤ 8 ∧ s.num.buffer.length ≤ 20
    ∧ s.line.queue.length ≤ 80 ∧ s.writer.queue.length ≤ 12 ∧ quotasKept s.writer.queue

/-- A page whose role for host writes is fixed as vetoed, whatever the state (09, section 9.2). -/
def alwaysVetoed (p : Nat) : Prop := p = 0 ∨ p = 2 ∨ (6 ≤ p ∧ p ≤ 9) ∨ (74 ≤ p ∧ p ≤ 233)

/-- A run that goes on: the step answers a next state. -/
def goesOn (s : State) : Prop := ∃ t, step s = .next t

end Sys2Proof.Machine
end

