-- ==== Sys2Proof/WellFormed.lean ====
section
/-!
DEFINITION. Well-formed commands: what the outside world can send.
-/

namespace Sys2Proof

/-- The word address is one of the memory's (09, section 9.1). -/
def addressOk (a : Addr) : Bool := a.toNat < 32768

/-- A host write has at least one data byte (09, section 9.1): without one it is an address setting. One that the memory has
cut short with a not-acknowledge may have none. -/
def dataOk (data : List Byte) : WriteEnd → Bool
  | .refusedAddress => data == []
  | .refusedByte => true
  | .stop => data != []
  | .repeatedStart => data != []
  | .otherDevice => data != []

/-- A host write names an address of the memory, and its data go with its end. -/
def writeOk (a : Addr) (data : List Byte) (e : WriteEnd) : Bool := addressOk a && dataOk data e

/-- An optional word address. -/
def addressOk? : Option Addr → Bool
  | none => true
  | some a => addressOk a

/-- A transit number is 0 to 255 (R3). -/
def transitOk (number : Nat) : Bool := number ≤ 255

/-- Where a transaction is broken off. -/
def BrokenAt.ok : BrokenAt → Bool
  | .inAddress _ => true
  | .inWrite a _ => addressOk a
  | .inRead a _ => addressOk? a

/-- Where a hold reaches its limit. -/
def HoldPoint.ok : HoldPoint → Bool
  | .atAcknowledge => true
  | .inAddress => true
  | .inWrite a _ => addressOk a
  | .inRead a _ => addressOk? a

/-- An own write has at most 64 data bytes (09, section 9.5). -/
def NakAt.ok : NakAt → Bool
  | .inAddress => true
  | .atData k => k < 64

/-- The command can be sent: a scan has seven counts, a write has data, a read gives a byte, and addresses and transit
numbers are within their ranges. -/
def Instr.wellFormed : Instr → Bool
  | .transitDeadlineExpiry n => transitOk n
  | .failedTransitReturn n => transitOk n
  | .tamperScan raw => raw.length == 7
  | .hostPassedWrite a data e _ => writeOk a data e
  | .hostVetoedWrite a data e _ => writeOk a data e
  | .hostAddressProbe a _ => addressOk? a
  | .hostRandomRead a n _ => addressOk a && 1 ≤ n
  | .hostCurrentAddressRead n _ => 1 ≤ n
  | .busError x => x.ok
  | .clockHoldLimit x => x.ok
  | .powerOnReset => true
  | .rstReset => true
  | .resettingEnd => true
  | .pfwAssert => true
  | .pfwClear => true
  | .clockSecond => true
  | .entry => true
  | .validatorStrobe _ => true
  | .acceptEnd => true
  | .escinActive => true
  | .escinInactive => true
  | .stringingTimeout => true
  | .releaseStart => true
  | .flapPulseEnd => true
  | .deadTimeEnd => true
  | .confirmationWindowExpiry => true
  | .vaultin => true
  | .returnEvent => true
  | .purgePulseStart => true
  | .purgePulseEnd => true
  | .purgeEnd => true
  | .chargingStep => true
  | .graceExpiry => true
  | .meterPulse => true
  | .pipPatternTimer => true
  | .activateTariff _ _ _ => true
  | .keyEvent _ => true
  | .keyTake => true
  | .silenceTimeout => true
  | .offHook => true
  | .onHook => true
  | .handsetLoss => true
  | .grantTimeout => true
  | .offhookHoldTimeout => true
  | .depositTimeout => true
  | .answerTimeout => true
  | .assumedAnswerTimeout => true
  | .reversalPresent => true
  | .clearBack => true
  | .followOnWindowExpiry => true
  | .ackCalls _ _ => true
  | .guardEnd => true
  | .dialToneQualified => true
  | .dialToneTimeout => true
  | .loopLoss => true
  | .toneOnEnd => true
  | .toneOffEnd => true
  | .decadicBreakEnd => true
  | .decadicMakeEnd => true
  | .interDigitPauseEnd => true
  | .acktoneDetection => true
  | .doorOpen => true
  | .doorClose => true
  | .boxEvent _ => true
  | .serviceWindowExpiry => true
  | .openService _ _ => true
  | .closeService _ => true
  | .clearBlock _ _ => true
  | .haltTimeout _ => true
  | .reseedTamper _ _ => true
  | .contextSettlingExpiry => true
  | .loiterTimeout => true
  | .contRestored => true
  | .quietTimeout _ => true
  | .ackIncidents _ _ => true
  | .testReport _ => true
  | .retryTimeout => true
  | .readyToneTimeout => true
  | .kissoffTimeout => true
  | .ownTransactionStart _ => true
  | .ownWriteConfirmed => true
  | .ownReadComplete => true
  | .memoryPoll _ => true
  | .memoryFault => true
  | .ownAttemptFailure x => x.at_.ok
  | .setClock _ _ _ => true
  | .reloadConfig _ => true
  | .endOfReset => true
  | .ownWriteStop => true

end Sys2Proof
end

