-- ==== Sys2Proof/Certificates/Slice0/Obligations.lean ====
section
/-!
DEFINITION. The statements about the PL-204, for the provers. Where a statement gives a command's next state, it gives the
command's own effect as an update of the state before it (everything not named is unchanged), then `settle`, the stages that
follow a command whose effect reaches several blocks, and `refreshPins`, which brings SLOTGATE, MUTE and PIP to their rules.
Obligations.RefreshAndPipPattern and Obligations.SettleFrameAndRest say what those two do.
Four of the model's choices run through the statements: an expiry moves the time base to its instant, `max s.now d` (log 2);
`settle` follows the command's own effect in one order (log 8); a request row hands its record over directly (log 12).
The fourth: a command whose moment the state does not have, a timer that is stopped or a coin that is not there, changes nothing
but the pins (log 1).
-/

section

open Sys2Proof Sys2Proof.Machine

/-! ### The queue of commands and the step -/

/-- The front command of the queue is carried out on the state with the queue's rest; with an empty queue a millisecond of
the time base passes (the model's choice, log 2). -/
def Obligations.StepRunsFrontCommand : Prop :=
  (∀ (s : State) (c : Instr) (rest : List Instr), s.pending = c :: rest → step s = exec c (s.withPending rest)) ∧
  (∀ s : State, s.pending = [] → step s = .next { s with now := s.now + 1 })

/-- Every command that the outside world can send goes on, in every state, and no command touches the queue. The time base
never runs back. -/
def Obligations.CommandsGoOn : Prop :=
  ((∀ (c : Instr) (s : State), c.wellFormed = true → ∃ t, exec c s = .next t) ∧
     (∀ (c : Instr) (s t : State), exec c s = .next t → t.pending = s.pending)) ∧
  (∀ s t : State, step s = .next t → s.now ≤ t.now)

/-- Outside RESETTING a host command that names a word address above 0x7FFF, which the memory of 32,768 bytes does not have,
faults (the model's choice, log 9). That is the only stop: no other command faults, none faults in RESETTING, and no command
is ever refused. -/
def Obligations.AddressOutsideMemoryFaults : Prop :=
  (∀ (a : Addr) (data : List Byte) (e : WriteEnd) (ack : Bool) (v : HostCourse) (n : Nat) (s : State),
    s.start.phase ≠ .resetting → 0x8000 ≤ a.toNat →
    exec (.hostPassedWrite a data e ack) s = .fault .hostAddressOutsideMemory ∧
    exec (.hostVetoedWrite a data e ack) s = .fault .hostAddressOutsideMemory ∧
    exec (.hostAddressProbe (some a) v) s = .fault .hostAddressOutsideMemory ∧
    exec (.hostRandomRead a n v) s = .fault .hostAddressOutsideMemory ∧
    exec (.busError (.inWrite a data)) s = .fault .hostAddressOutsideMemory ∧
    exec (.busError (.inRead (some a) n)) s = .fault .hostAddressOutsideMemory ∧
    exec (.clockHoldLimit (.inWrite a data)) s = .fault .hostAddressOutsideMemory ∧
    exec (.clockHoldLimit (.inRead (some a) n)) s = .fault .hostAddressOutsideMemory) ∧
  (∀ (c : Instr) (s : State) (f : Fault), exec c s = .fault f →
    s.start.phase ≠ .resetting ∧ ∃ (a : Addr) (data : List Byte) (e : WriteEnd) (ack : Bool) (v : HostCourse) (n : Nat),
      0x8000 ≤ a.toNat ∧
      (c = .hostPassedWrite a data e ack ∨ c = .hostVetoedWrite a data e ack ∨ c = .hostAddressProbe (some a) v ∨
        c = .hostRandomRead a n v ∨ c = .busError (.inWrite a data) ∨ c = .busError (.inRead (some a) n) ∨
        c = .clockHoldLimit (.inWrite a data) ∨ c = .clockHoldLimit (.inRead (some a) n))) ∧
  (∀ (c : Instr) (s : State) (r : Refusal), exec c s ≠ .refused r)

/-! ### Invariants of every step -/

/-- Every step keeps the memory's canonical form, with every listed address below 32,768. -/
def Obligations.StepKeepsMemoryForm : Prop := ∀ s t : State, memoryOk s → step s = .next t → memoryOk t

/-- The COLLECT and RETURN coils are never energised together. -/
def Obligations.StepNeverDrivesBothCoils : Prop := ∀ s t : State, oneCoil s → step s = .next t → oneCoil t

/-- No bounded collection outgrows its rule: 3 transit entries, 10 escrow entries, 8 keys, 20 digits, 80 sender digits, 12
items in the own-write queue, and of each producer no more than its quota: call controller and vault 2, request handler and
rating engine 1, incident unit 6. -/
def Obligations.StepKeepsCapacities : Prop :=
  (∀ s t : State, withinCapacity s → step s = .next t → withinCapacity t) ∧
  (∀ s : State, withinCapacity s ↔
    s.coin.transit.length ≤ 3 ∧ s.coin.escrow.length ≤ 10 ∧ s.num.keys.length ≤ 8 ∧ s.num.buffer.length ≤ 20 ∧
    s.line.queue.length ≤ 80 ∧ s.writer.queue.length ≤ 12 ∧
    (s.writer.queue.filter fun i => i.producer == .call).length ≤ 2 ∧
    (s.writer.queue.filter fun i => i.producer == .vault).length ≤ 2 ∧
    (s.writer.queue.filter fun i => i.producer == .request).length ≤ 1 ∧
    (s.writer.queue.filter fun i => i.producer == .rating).length ≤ 1 ∧
    (s.writer.queue.filter fun i => i.producer == .incident).length ≤ 6)

/-- The three invariants hold at reset. -/
def Obligations.ResetMeetsInvariants : Prop :=
  memoryOk State.reset ∧ oneCoil State.reset ∧ withinCapacity State.reset

/-! ### The pins that follow conditions -/

/-- After every command SLOTGATE is active exactly while the conditions of the gate rule hold. -/
def Obligations.GateFollowsRule : Prop :=
  ∀ (c : Instr) (s t : State), exec c s = .next t →
    (t.pins.slotGate = true ↔
      t.start.phase = .ready ∧
      (t.call.st = .collect ∨ t.call.st = .awaitDeposit ∨ t.call.st = .dialling ∨ t.call.st = .ringing ∨
        t.call.st = .connected ∨ t.call.st = .grace ∨ t.call.st = .afterCall) ∧
      (t.call.reasons.slotJam = false ∧ t.call.reasons.chuteBlocked = false ∧ t.call.reasons.flapFault = false ∧
        t.call.reasons.tariffFault = false ∧ t.call.reasons.configFault = false) ∧
      (t.call.st = .collect ∨ t.call.st = .awaitDeposit → t.call.reasons = Reasons.empty) ∧
      t.coin.escrow.length + t.coin.transit.length < 10 - t.req.cfg.almostFull ∧
      t.pfw = false)

/-- After every command MUTE is active exactly while the owner is REPORT, or the owner is CALL and the line is SENDING; and
PIP is active exactly while its pattern is in an active part, the owner is CALL and MUTE is inactive. The pattern stands in
the row of the present condition: fast in GRACE, slow in CONNECTED with the low-credit flag set, else none; and with none it
has no active part, so that PIP is inactive. RefreshAndPipPattern has the rows' timing. -/
def Obligations.MuteAndPipFollowRules : Prop :=
  ∀ (c : Instr) (s t : State), exec c s = .next t →
    (t.pins.mute = true ↔ t.line.owner = .report ∨ (t.line.owner = .call ∧ t.line.st = .sending)) ∧
    (t.pins.pip = true ↔ t.pipGen.high = true ∧ t.line.owner = .call ∧ t.pins.mute = false) ∧
    t.pipGen.mode = (if t.call.st = .grace then .fast
      else if t.call.st = .connected ∧ t.acct.lowCredit = true then .slow else .off) ∧
    (t.pipGen.mode = .off → t.pipGen.high = false ∧ t.pins.pip = false)

/-- The refresh of the pins changes SLOTGATE, MUTE, PIP and the PIP pattern, and nothing else; a pattern whose row stays the
same goes on undisturbed, one that begins starts with 200 ms active, and without a row there is none. PIP_PATTERN_TIMER: the
active 200 ms end, and the inactive part lasts 1,800 ms in CONNECTED and 200 ms in GRACE; the inactive part ends, and 200 ms
active begin. -/
def Obligations.RefreshAndPipPattern : Prop :=
  (∀ s : State, ∃ (g : PipGen) (x : Bool),
       refreshPins s = { s with pipGen := g, pins := { s.pins with slotGate := gateRule s, mute := muteRule s.line, pip := x } } ∧
       (pipModeNow s ≠ .off → pipModeNow s = s.pipGen.mode → g = s.pipGen) ∧
       (pipModeNow s ≠ .off → pipModeNow s ≠ s.pipGen.mode → g = ⟨pipModeNow s, true, some (s.now + 200)⟩) ∧
       (pipModeNow s = .off → g = ⟨.off, false, none⟩)) ∧
  (∀ (s : State) (d : Nat), s.start.rstHeld = false → s.pipGen.next = some d →
       (s.pipGen.high = true → exec .pipPatternTimer s = .next (refreshPins { s with
         now := max s.now d
         pipGen := ⟨s.pipGen.mode, false, some (max s.now d + if s.pipGen.mode = .fast then 200 else 1800)⟩ })) ∧
       (s.pipGen.high = false → exec .pipPatternTimer s = .next (refreshPins { s with
         now := max s.now d, pipGen := ⟨s.pipGen.mode, true, some (max s.now d + 200)⟩ })))

/-! ### The stages after a command -/

/-- What the stages leave alone in every state: the time base and the clock, the inputs, the queue of commands, the memory
port, the transaction in progress, the ACCEPT and coil outputs, the transit table. The escrow queue, the keys and the buffer do
not grow, the sender holds 80 digits or no more than before, and the items that join the own-write queue keep every producer
within its quota. With the
context current, no qualifying event waiting, no slot able to leave the incident table and nothing held by a producer, the
stages change nothing. A slot may leave when it is CLOSED_PENDING with its report state final, below 64 unacknowledged
records and below the quota of 6 items; the oldest by incident sequence leaves first, and slots leave until none can. The
stages: twice the context and what the dialler makes of a qualifying event, then the slots that leave, then what producers hold (their order is the model's choice,
log 8). -/
def Obligations.SettleFrameAndRest : Prop :=
  (∀ s : State,
       (settle s).now = s.now ∧ (settle s).clock = s.clock ∧ (settle s).pfw = s.pfw ∧ (settle s).pending = s.pending ∧
       (settle s).draws = s.draws ∧ (settle s).link = s.link ∧ (settle s).start.phase = s.start.phase ∧
       (settle s).start.rstHeld = s.start.rstHeld ∧ (settle s).writer.phase = s.writer.phase ∧
       (settle s).pins.accept = s.pins.accept ∧ (settle s).pins.flapC = s.pins.flapC ∧
       (settle s).pins.flapR = s.pins.flapR ∧ (settle s).coin.transit = s.coin.transit ∧
       (settle s).coin.escrow.length ≤ s.coin.escrow.length ∧ (settle s).num.keys.length ≤ s.num.keys.length ∧
       (settle s).num.buffer.length ≤ s.num.buffer.length ∧
       (settle s).line.queue.length ≤ max 80 s.line.queue.length ∧
       (quotasKept s.writer.queue → quotasKept (settle s).writer.queue)) ∧
  (∀ s : State, formContext s = s.tamper.context → s.dial.react = false → leaving s = none →
       s.call.heldRecords = [] → s.vault.held = [] → s.req.heldResponse = none → s.req.wantRead = none →
       s.tariff.heldSwitch = false → s.tariff.wantRead = none → s.start.want = none → settle s = s) ∧
  (∀ s : State,
       let ready (k : IncidentKind) (x : Slot) : Prop := s.inc.slots.get k = some x ∧ x.closedPending = true ∧
         (x.report = .reported ∨ x.report = .reportFailed ∨ x.report = .notRequired)
       (∀ k x, ready k x → s.inc.unacked < 64 → itemsOf .incident s.writer.queue < 6 →
         (∀ j y, ready j y → j ≠ k → newer y.seq x.seq = true) → leaving s = some (k, x)) ∧
       (64 ≤ s.inc.unacked ∨ 6 ≤ itemsOf .incident s.writer.queue ∨ (∀ k x, ¬ ready k x) → leaving s = none) ∧
       (∀ k x, leaving s = some (k, x) → ready k x ∧ s.inc.unacked < 64 ∧ itemsOf .incident s.writer.queue < 6 ∧
         ∀ n, leaveStage (n + 1) s = leaveStage n (queueIncident k x s)) ∧
       (leaving s = none → ∀ n, leaveStage n s = s) ∧ leaving (leaveStage 16 s) = none) ∧
  (∀ s : State, settle s = releaseHeld (leaveStage 16 (reactions s)) ∧
       reactions s = reactStage (contextStage (reactStage (contextStage s))))

/-! ### Coin path (01) -/

/-- ENTRY: before the purge has ended it is ignored (the model's deduction, log 16); from then on it adds an ENTERED entry
with a deadline of 1,000 ms, and with 3 entries in the table it opens SLOT_FORCED instead. The gate plays no part.
TRANSIT_DEADLINE_EXPIRY of a coin that is ENTERED, or ACCEPTED and not at the sensor: its entry is removed without credit,
SLOT_JAM is raised and its incident opened. FAILED_TRANSIT_RETURN of a coin on its way to the cup: its entry is removed and
counted; the second in a row raises CHUTE_BLOCKED with its incident, then freezes the escrow (in that order, so that a
return-all that the freeze finishes adds its held value to the incident just opened: the model's choice, log 31) and sets the
count back to 0. -/
def Obligations.TransitEntries : Prop :=
  (∀ s : State, s.start.rstHeld = false →
       (s.start.phase ≠ .settling ∧ s.start.phase ≠ .ready → exec .entry s = .next (refreshPins s)) ∧
       (s.start.phase = .settling ∨ s.start.phase = .ready →
         (s.coin.transit.length < 3 → exec .entry s = .next (refreshPins { s with coin := { s.coin with
           transit := s.coin.transit ++ [⟨s.coin.nextTransit, .entered, none, some (s.now + 1000), false⟩]
           nextTransit := (s.coin.nextTransit + 1) % 256 } })) ∧
         (3 ≤ s.coin.transit.length → exec .entry s = .next (refreshPins (settle (openIncident .slotForced s)))))) ∧
  (∀ (s : State) (pre post : List Transit) (x : Transit) (d : Nat), s.start.rstHeld = false →
       s.coin.transit = pre ++ x :: post → (∀ y ∈ pre, y.number ≠ x.number) → x.deadline = some d →
       (x.st = .entered ∨ (x.st = .accepted ∧ x.atSensor = false) →
         exec (.transitDeadlineExpiry x.number) s = .next (refreshPins (settle (openIncident .slotJam (raiseReason .slotJam
           { s with now := max s.now d, coin := { s.coin with transit := pre ++ post } }))))) ∧
       (x.st = .rejected ∨ x.st = .diverted →
         (s.coin.failedReturns = 0 → exec (.failedTransitReturn x.number) s = .next (refreshPins (settle
           { s with now := max s.now d, coin := { s.coin with transit := pre ++ post, failedReturns := 1 } }))) ∧
         (1 ≤ s.coin.failedReturns → exec (.failedTransitReturn x.number) s = .next (refreshPins (settle
           (raiseFreezing .chuteBlocked .chuteBlocked
             { s with now := max s.now d, coin := { s.coin with transit := pre ++ post, failedReturns := 0 } }))))))

/-- VALIDATOR_STROBE, from the purge on: it decides the oldest ENTERED entry, with a new deadline of 800 ms: a rejected coin
has no class; a class is accepted, with ACCEPT active for 40 ms, when no reason to divert holds, and else diverted. With no
ENTERED entry it is stray: it is counted, also against SLOT_JAM. Before the purge the coin path stays as reset leaves it (the
model's deduction, log 16). ACCEPT_END: ACCEPT goes inactive when its time runs out; no other strobe ends it sooner (the
model's choice, log 31). -/
def Obligations.StrobeAndAccept : Prop :=
  (∀ s : State, s.start.rstHeld = false →
       (s.start.phase = .resetting ∨ s.start.phase = .scanning →
         ∀ a : StrobeAnswer, exec (.validatorStrobe a) s = .next (refreshPins s)) ∧
       (s.start.phase ≠ .resetting → s.start.phase ≠ .scanning →
         ((∀ y ∈ s.coin.transit, y.st ≠ .entered) → ∀ a : StrobeAnswer, exec (.validatorStrobe a) s =
           .next (refreshPins (addDetail .slotJam { s with coin := { s.coin with
             strayStrobes := bump 255 s.coin.strayStrobes } }))) ∧
         (∀ (pre post : List Transit) (x : Transit), s.coin.transit = pre ++ x :: post → (∀ y ∈ pre, y.st ≠ .entered) →
           x.st = .entered →
           exec (.validatorStrobe .reject) s = .next (refreshPins { s with coin := { s.coin with
             transit := pre ++ { x with st := .rejected, cls := none, deadline := some (s.now + 800) } :: post } }) ∧
           ∀ k : Fin 8, exec (.validatorStrobe (.classCode k)) s =
             if s.req.cfg.values.get k ≠ 0 ∧
                 s.coin.escrow.length + (s.coin.transit.filter fun y => y.st == .accepted).length < 10 ∧
                 s.start.phase = .ready ∧ s.call.st.acceptsCoins = true ∧ s.call.reasons.closesGate = false ∧
                 (s.call.st = .collect ∨ s.call.st = .awaitDeposit → s.call.reasons.blocksRouting = false) ∧ s.pfw = false then
               .next (refreshPins { s with
                 pins := { s.pins with accept := true }
                 coin := { s.coin with
                   transit := pre ++ { x with st := .accepted, cls := some k, deadline := some (s.now + 800) } :: post
                   acceptEnd := some (s.now + 40) } })
             else
               .next (refreshPins { s with coin := { s.coin with
                 transit := pre ++ { x with st := .diverted, cls := some k, deadline := some (s.now + 800) } :: post } })))) ∧
  (∀ (s : State) (d : Nat), s.start.rstHeld = false → s.coin.acceptEnd = some d →
       exec .acceptEnd s = .next (refreshPins { s with
         now := max s.now d, pins := { s.pins with accept := false }, coin := { s.coin with acceptEnd := none } }))

/-- ESCIN_ACTIVE, from the end of the purge on: the passage is bound to the oldest ACCEPTED entry that is not at the sensor,
whose deadline stops, or is unbound; it may last 250 ms. STRINGING_TIMEOUT, 250 ms into a passage: the bound entry is
removed without credit and STRINGING is opened; the passage goes on as a string. -/
def Obligations.PassagesAndStrings : Prop :=
  (∀ s : State, s.start.rstHeld = false → (s.start.phase = .settling ∨ s.start.phase = .ready) → s.coin.passage = none →
       ((∀ y ∈ s.coin.transit, ¬ (y.st = .accepted ∧ y.atSensor = false)) →
         exec .escinActive s = .next (refreshPins { s with coin := { s.coin with
           passage := some ⟨none, false, s.now + 250⟩ } })) ∧
       (∀ (pre post : List Transit) (x : Transit), s.coin.transit = pre ++ x :: post →
         (∀ y ∈ pre, ¬ (y.st = .accepted ∧ y.atSensor = false)) → x.st = .accepted → x.atSensor = false →
         exec .escinActive s = .next (refreshPins { s with coin := { s.coin with
           passage := some ⟨some x.number, false, s.now + 250⟩
           transit := pre ++ { x with atSensor := true, deadline := none } :: post } }))) ∧
  (∀ (s : State) (p : Passage), s.start.rstHeld = false → s.coin.passage = some p → p.strung = false →
       (p.bound = none → exec .stringingTimeout s = .next (refreshPins (settle (openIncident .stringing { s with
         now := max s.now p.limit, coin := { s.coin with passage := some { p with strung := true } } })))) ∧
       (∀ (pre post : List Transit) (x : Transit), p.bound = some x.number → s.coin.transit = pre ++ x :: post →
         (∀ y ∈ pre, y.number ≠ x.number) → x.atSensor = true →
         exec .stringingTimeout s = .next (refreshPins (settle (openIncident .stringing { s with
           now := max s.now p.limit
           coin := { s.coin with transit := pre ++ post, passage := some { p with bound := none, strung := true } } })))))

/-- ESCIN_INACTIVE ends a passage. Unbound, or held on a string, it appends a stray bound for the vault while the queue
holds fewer than 10 entries; bound to a coin of class k it removes the coin's entry, and the coin reaches the rail while
there is room. Onto a full rail nothing is appended and STRINGING is given a detail count, opened if need be. -/
def Obligations.EscinInactiveEndsPassage : Prop :=
  ∀ (s : State) (p : Passage), s.start.rstHeld = false → s.coin.passage = some p →
    (p.strung = true ∨ p.bound = none →
      (s.coin.escrow.length < 10 → exec .escinInactive s = .next (refreshPins (settle { s with coin := { s.coin with
        passage := none
        escrow := s.coin.escrow ++ [⟨s.coin.nextEscrow, none, 0, .releasingCollect, .committed⟩]
        nextEscrow := (s.coin.nextEscrow + 1) % 256 } }))) ∧
      (10 ≤ s.coin.escrow.length → exec .escinInactive s = .next (refreshPins (settle (stringDetail
        { s with coin := { s.coin with passage := none } }))))) ∧
    (∀ (pre post : List Transit) (x : Transit) (k : Fin 8), p.strung = false → p.bound = some x.number →
      s.coin.transit = pre ++ x :: post → (∀ y ∈ pre, y.number ≠ x.number) → x.atSensor = true → x.cls = some k →
      (s.coin.escrow.length < 10 → exec .escinInactive s = .next (refreshPins (settle (coinArrives k
        { s with coin := { s.coin with passage := none, transit := pre ++ post } })))) ∧
      (10 ≤ s.coin.escrow.length → exec .escinInactive s = .next (refreshPins (settle (stringDetail
        { s with coin := { s.coin with passage := none, transit := pre ++ post } })))))

/-- A coin of class k that reaches the rail gets that class's value and its standing: CREDIT and reported, marked for return,
while a return-all is in progress; CREDIT and reported while a session is open; else HELD_OVER, unreported and marked for
return, with the escrow frozen too (the model's deduction, log 29). Reported, its value is added to E and to the coins
inserted. A collect request commits the oldest entry that is HELD with standing CREDIT and answers its value, which goes from
E to B; with the escrow frozen, or with no such entry, it answers none and changes nothing. -/
def Obligations.StandingAndCommitment : Prop :=
  (∀ (s : State) (k : Fin 8),
       let v := s.req.cfg.values.get k
       let onRail (st : EscrowState) (g : Standing) : CoinPath := { s.coin with
         escrow := s.coin.escrow ++ [⟨s.coin.nextEscrow, some k, v, st, g⟩], nextEscrow := (s.coin.nextEscrow + 1) % 256 }
       let paid : Account := { s.acct with
         e := s.acct.e + v, inserted := satAdd 999999 s.acct.inserted v
         sat := s.acct.sat || decide (999999 < s.acct.inserted + v) }
       (s.coin.returnAll.isSome = true → coinArrives k s = { s with coin := onRail .releasingReturn .credit, acct := paid }) ∧
       (s.coin.returnAll = none →
         (s.call.st.acceptsCoins = true ∨ (s.call.st = .seizing ∧ s.call.followOn = true) →
           coinArrives k s = afterCredit { s with coin := onRail .held .credit, acct := paid }) ∧
         (¬ (s.call.st.acceptsCoins = true ∨ (s.call.st = .seizing ∧ s.call.followOn = true)) →
           coinArrives k s = { s with coin := onRail .releasingReturn .heldOver }))) ∧
  (∀ s : State,
       (s.call.reasons.chuteBlocked = true ∨ s.call.reasons.flapFault = true ∨
           (∀ y ∈ s.coin.escrow, ¬ (y.st = .held ∧ y.standing = .credit)) → collectRequest s = (none, s)) ∧
       (∀ (pre post : List Escrow) (x : Escrow), s.call.reasons.chuteBlocked = false → s.call.reasons.flapFault = false →
         s.coin.escrow = pre ++ x :: post → (∀ y ∈ pre, ¬ (y.st = .held ∧ y.standing = .credit)) → x.st = .held →
         x.standing = .credit →
         collectRequest s = (some x.value, { s with
           coin := { s.coin with escrow := pre ++ { x with st := .releasingCollect, standing := .committed } :: post }
           acct := { s.acct with e := s.acct.e - x.value, b := s.acct.b + x.value } })))

/-- RELEASE_START: the head entry's coil is driven for P with a confirmation window of 500 ms when the head is releasing, no
release is in flight, the escrow is not frozen, PFW is not asserted and the driver is IDLE with its dead time over; with the
head HELD, or any of the rest not met, nothing starts. FLAP_PULSE_END de-energises the coil, starts the dead time D, and
leaves the driver in WINDOW, or in SETTLE when the release has been confirmed. DEAD_TIME_END takes the driver from SETTLE to
IDLE, and in WINDOW leaves it waiting. -/
def Obligations.FlapDriver : Prop :=
  (∀ s : State, s.start.rstHeld = false →
       (∀ (x : Escrow) (rest : List Escrow), s.coin.escrow = x :: rest → s.coin.inFlight = none →
         s.call.reasons.chuteBlocked = false → s.call.reasons.flapFault = false → s.pfw = false → s.coin.deadEnd = none →
         s.coin.flap = .idle → s.start.phase ≠ .purging →
         (x.st = .releasingCollect → exec .releaseStart s = .next (refreshPins { s with
           pins := { s.pins with flapC := true, flapR := false }
           coin := { s.coin with flap := .pulse, inFlight := some ⟨.collect, false, s.now + 500, s.req.cfg.pulse⟩
                                 pulseEnd := some (s.now + s.req.cfg.pulse) } })) ∧
         (x.st = .releasingReturn → exec .releaseStart s = .next (refreshPins { s with
           pins := { s.pins with flapC := false, flapR := true }
           coin := { s.coin with flap := .pulse, inFlight := some ⟨.return_, false, s.now + 500, s.req.cfg.pulse⟩
                                 pulseEnd := some (s.now + s.req.cfg.pulse) } })) ∧
         (x.st = .held → exec .releaseStart s = .next (refreshPins s))) ∧
       (s.coin.escrow = [] ∨ s.coin.inFlight.isSome = true ∨ s.call.reasons.chuteBlocked = true ∨
           s.call.reasons.flapFault = true ∨ s.pfw = true ∨ s.coin.deadEnd.isSome = true ∨ s.coin.flap ≠ .idle ∨
           s.start.phase = .purging →
         exec .releaseStart s = .next (refreshPins s))) ∧
  (∀ (s : State) (d : Nat), s.start.rstHeld = false →
       (s.coin.pulseEnd = some d → exec .flapPulseEnd s = .next (refreshPins { s with
         now := max s.now d
         pins := { s.pins with flapC := false, flapR := false }
         coin := { s.coin with
           flap := if s.coin.inFlight.isSome = true then .window else .settle
           pulseEnd := none, deadEnd := some (max s.now d + s.req.cfg.deadTime) } })) ∧
       (s.coin.deadEnd = some d → exec .deadTimeEnd s = .next (refreshPins { s with
         now := max s.now d
         coin := { s.coin with deadEnd := none, flap := if s.coin.flap = .settle then .idle else s.coin.flap } })))

/-- CONFIRMATION_WINDOW_EXPIRY: the first retries the same release at that moment with a second window of 500 ms. The second
returns the entry to HELD with its standing unchanged, leaves the driver IDLE, and raises FLAP_FAULT for a collect and
CHUTE_BLOCKED for a return, with the incident of the same name; the escrow is frozen. CHUTE_BLOCKED or FLAP_FAULT raised with
its incident, which is opened first (for a failed transit return the model's choice, log 31): an escrow not frozen before has
its pending returns, but not one in flight, go back to HELD, and a return-all in progress is finished: its CREDIT entries
become HELD_OVER, and HELD unless their return is in flight; their value goes into the detail money of CHUTE_BLOCKED, or of
FLAP_FAULT where that is not in the table, and from E to held; and the return-all is reported. -/
def Obligations.FailedReleases : Prop :=
  (∀ (s : State) (r : InFlight), s.start.rstHeld = false → s.coin.inFlight = some r →
       (r.retry = false → exec .confirmationWindowExpiry s = .next (refreshPins { s with
         now := max s.now r.windowEnd
         pins := { s.pins with flapC := r.coil == .collect, flapR := r.coil == .return_ }
         coin := { s.coin with
           flap := .pulse
           inFlight := some ⟨r.coil, true, max s.now r.windowEnd + 500, r.pulse⟩
           pulseEnd := some (max s.now r.windowEnd + r.pulse)
           deadEnd := none } })) ∧
       (∀ (x : Escrow) (rest : List Escrow), r.retry = true → s.coin.escrow = x :: rest →
         exec .confirmationWindowExpiry s = .next (refreshPins (settle (raiseFreezing
           (if r.coil = .collect then .flapFault else .chuteBlocked) (if r.coil = .collect then .flapFault else .chuteBlocked)
           { s with
             now := max s.now r.windowEnd
             pins := { s.pins with flapC := false, flapR := false }
             coin := { s.coin with
               flap := .idle, inFlight := none, pulseEnd := none, deadEnd := none, escrow := { x with st := .held } :: rest } }))))) ∧
  (∀ (s : State) (r : BlockReason) (k : IncidentKind), r = .chuteBlocked ∨ r = .flapFault →
       let back (y : Escrow) : Escrow := if y.st = .releasingReturn then { y with st := .held } else y
       let after (y : State) : State := if s.coin.returnAll.isSome = true then finishFrozen y else y
       (frozen s = true → raiseFreezing r k s = openIncident k (raiseReason r s)) ∧
       (frozen s = false → s.coin.inFlight = none →
         raiseFreezing r k s = after ((openIncident k (raiseReason r s)).onCoin fun c => { c with
           escrow := s.coin.escrow.map back })) ∧
       (∀ (x : Escrow) (rest : List Escrow), frozen s = false → s.coin.inFlight.isSome = true → s.coin.escrow = x :: rest →
         raiseFreezing r k s = after ((openIncident k (raiseReason r s)).onCoin fun c => { c with
           escrow := x :: rest.map back }))) ∧
  (∀ s : State,
       let v := (s.coin.escrow.map fun y => if y.standing = .credit then y.value else 0).sum
       let keep (y : Escrow) : Escrow := if y.standing = .credit then { y with st := .held, standing := .heldOver } else y
       let money (y : State) : State := if (s.inc.slots.get .chuteBlocked).isSome = true
         then addDetailMoney .chuteBlocked v y else addDetailMoney .flapFault v y
       let close (q : List Escrow) : State :=
         finishReturnAll ((money { s with coin := { s.coin with escrow := q } }).onAcct fun a => { a with
           e := a.e - v, held := satAdd 999999 a.held v, sat := a.sat || decide (999999 < a.held + v) })
       (s.coin.inFlight = none → finishFrozen s = close (s.coin.escrow.map keep)) ∧
       (∀ (x : Escrow) (rest : List Escrow), s.coin.inFlight.isSome = true → s.coin.escrow = x :: rest →
         finishFrozen s =
           close ((if x.standing = .credit then { x with standing := .heldOver } else x) :: rest.map keep)) ∧
       (s.call.st ≠ .clearing → finishReturnAll s = { s with coin := { s.coin with returnAll := none } })) ∧
  (∀ s : State,
       let now (r : Reasons) : State := { s with call := { s.call with reasons := r } }
       raiseReason .slotJam s = now { s.call.reasons with slotJam := true } ∧
       raiseReason .chuteBlocked s = now { s.call.reasons with chuteBlocked := true } ∧
       raiseReason .flapFault s = now { s.call.reasons with flapFault := true })

/-- VAULTIN, from the purge on: with a collect in flight it confirms the head entry, which leaves the queue and goes to the
vault accounting unit with its attempt; the failed-return count is cleared. With none it is a stray vault arrival and changes
nothing else. That the purge's beginning is the bound is the model's deduction (log 16). A confirmed coin of class k adds one
to the count of its class and its value to the lifetime value, each saturating; a stray adds one to the stray count alone; a
confirmation on the retry adds one to the unconfirmed count. The fill follows: the coins of every class and the strays since
the baseline; VAULT_FULL is raised at the capacity and the fill warning stands from the margin below it. A VAULT_UPDATE is
handed over unless ACCOUNT_FAULT stands: none joins beside one whose write has not begun or one that is held; else it joins
the queue within the quota of 2, or is held. Its write begins with the acknowledge of the device address, not with the polls
for it, and one whose attempt has failed counts as begun until its retry, so that a further one joins behind it: the model's
choices (log 31). -/
def Obligations.VaultArrivals : Prop :=
  (∀ s : State, s.start.rstHeld = false →
       (s.start.phase = .resetting ∨ s.start.phase = .scanning → exec .vaultin s = .next (refreshPins s)) ∧
       (s.start.phase ≠ .resetting → s.start.phase ≠ .scanning →
         (∀ (r : InFlight) (x : Escrow) (rest : List Escrow), s.coin.inFlight = some r → r.coil = .collect →
           s.coin.escrow = x :: rest →
           exec .vaultin s = .next (refreshPins (settle (confirmCoin x r.retry { s with coin := { s.coin with
             escrow := rest, inFlight := none, failedReturns := 0
             flap := if s.coin.flap = .window then (if s.coin.deadEnd = none then .idle else .settle) else s.coin.flap } })))) ∧
         ((∀ r, s.coin.inFlight = some r → r.coil = .return_) → exec .vaultin s = .next (refreshPins { s with
           coin := { s.coin with strayVault := bump 255 s.coin.strayVault } })))) ∧
  (∀ (x : Escrow) (retry : Bool) (s : State),
       let u := if retry = true then bump 4294967295 s.vault.unconfirmed else s.vault.unconfirmed
       (∀ k : Fin 8, x.cls = some k →
         confirmCoin x retry s = handVaultUpdate (recomputeFill { s with vault := { s.vault with
           unconfirmed := u
           sat := s.vault.sat || decide (99999999 < s.vault.life.value + x.value)
           life := { s.vault.life with
             coins := s.vault.life.coins.put k (bump 4294967295 (s.vault.life.coins.get k))
             value := satAdd 99999999 s.vault.life.value x.value } } })) ∧
       (x.cls = none →
         confirmCoin x retry s = handVaultUpdate (recomputeFill { s with vault := { s.vault with
           unconfirmed := u, life := { s.vault.life with stray := bump 4294967295 s.vault.life.stray } } }))) ∧
  (∀ s : State,
       let f := s.vault.since.objects
       recomputeFill s = { s with
         vault := { s.vault with fill := f, fillWarning := decide (s.req.cfg.capacity - s.req.cfg.margin ≤ f) }
         call := if s.req.cfg.capacity ≤ f then { s.call with reasons := s.call.reasons.put .vaultFull true } else s.call } ∧
       ((∀ k : Fin 8, s.vault.base.coins.get k ≤ s.vault.life.coins.get k) → s.vault.base.stray ≤ s.vault.life.stray →
         f + (s.vault.base.coins.toList.sum + s.vault.base.stray) =
           s.vault.life.coins.toList.sum + s.vault.life.stray)) ∧
  (∀ s : State,
       let waits : Prop := .vaultUpdate ∈ (if s.writer.taken = true then s.writer.queue.tail else s.writer.queue) ∨
         .update ∈ s.vault.held
       (s.call.reasons.accountFault = true ∨ waits → handVaultUpdate s = s) ∧
       (s.call.reasons.accountFault = false → ¬ waits →
         handVaultUpdate s =
           if (s.writer.queue.filter fun i => i.producer == .vault).length < 2 ∧ s.vault.held = []
           then { s with writer := { s.writer with queue := s.writer.queue ++ [.vaultUpdate] } }
           else { s with vault := { s.vault with held := s.vault.held ++ [.update] } }))

/-- RETURN_EVENT. Before the purge the coin path stays as reset leaves it. It is counted as purged from the purge's first
pulse to its end. Else, and in PURGING before the first pulse too (the model's deductions, log 16), it matches first the oldest coin on its way to the cup, whose entry leaves and clears the
failed-return count; then the escrow return in flight, whose entry leaves: a HELD_OVER value is reported to no one; a CREDIT
value, which is on its way to the cup only in a return-all, is refunded, and the return-all's total counts it, and is
finished and reported when no CREDIT entry remains; and unmatched it counts against CHUTE_BLOCKED if that has a slot in use,
ended or closed ones included (the model's choice, log 31), else as a stray return. -/
def Obligations.ReturnEventMatches : Prop :=
  ∀ s : State, s.start.rstHeld = false →
    (s.start.phase = .resetting ∨ s.start.phase = .scanning → exec .returnEvent s = .next (refreshPins s)) ∧
    (s.start.phase = .purging → s.coin.purgeStarted = true → exec .returnEvent s = .next (refreshPins { s with
      coin := { s.coin with purged := bump 255 s.coin.purged } })) ∧
    (s.start.phase = .settling ∨ s.start.phase = .ready ∨ (s.start.phase = .purging ∧ s.coin.purgeStarted = false) →
      (∀ (pre post : List Transit) (x : Transit), s.coin.transit = pre ++ x :: post →
        (∀ y ∈ pre, y.st ≠ .rejected ∧ y.st ≠ .diverted) → x.st = .rejected ∨ x.st = .diverted →
        exec .returnEvent s = .next (refreshPins { s with
          coin := { s.coin with transit := pre ++ post, failedReturns := 0 } })) ∧
      ((∀ y ∈ s.coin.transit, y.st ≠ .rejected ∧ y.st ≠ .diverted) →
        (∀ (r : InFlight) (x : Escrow) (rest : List Escrow), s.coin.inFlight = some r → r.coil = .return_ →
          s.coin.escrow = x :: rest →
          let gone : CoinPath := { s.coin with
            escrow := rest, inFlight := none, failedReturns := 0
            flap := if s.coin.flap = .window then (if s.coin.deadEnd = none then .idle else .settle) else s.coin.flap }
          (x.standing ≠ .credit → exec .returnEvent s = .next (refreshPins (settle { s with coin := gone }))) ∧
          (∀ n : Nat, x.standing = .credit → s.coin.returnAll = some n →
            let t : State := { s with
              coin := { gone with returnAll := some (n + x.value) }
              acct := { s.acct with
                e := s.acct.e - x.value, refunded := satAdd 999999 s.acct.refunded x.value
                sat := s.acct.sat || decide (999999 < s.acct.refunded + x.value) } }
            ((∃ y ∈ rest, y.standing = .credit) → exec .returnEvent s = .next (refreshPins (settle t))) ∧
            ((∀ y ∈ rest, y.standing ≠ .credit) →
              exec .returnEvent s = .next (refreshPins (settle (finishReturnAll t)))))) ∧
        ((∀ r, s.coin.inFlight = some r → r.coil = .collect) → exec .returnEvent s = .next (refreshPins
          (if (s.inc.slots.get .chuteBlocked).isSome = true then addDetail .chuteBlocked s
           else { s with coin := { s.coin with strayReturns := bump 255 s.coin.strayReturns } })))))

/-- The purge: while PFW is clear (with PFW asserted the pulse waits: the model's deduction, log 25) PURGE_PULSE_START drives
the RETURN coil for P, the flap driver's state left as it is (the model's choice, log 31); PURGE_PULSE_END de-energises it,
and the next pulse follows D later, or after the tenth the last 800 ms of counting; PURGE_END gives way to SETTLING, in which
the tamper sensing unit begins to settle. -/
def Obligations.PurgePulses : Prop :=
  ∀ (s : State) (d : Nat), s.start.rstHeld = false →
    (s.start.phase = .purging → s.coin.purgeNext = some d →
      (s.pfw = false → exec .purgePulseStart s = .next (refreshPins { s with
        now := max s.now d
        pins := { s.pins with flapC := false, flapR := true }
        coin := { s.coin with
          purgeStarted := true, purgeNext := none, purgePulseEnd := some (max s.now d + s.req.cfg.pulse) } })) ∧
      (s.pfw = true → exec .purgePulseStart s = .next (refreshPins s))) ∧
    (s.coin.purgePulseEnd = some d → exec .purgePulseEnd s = .next (refreshPins { s with
      now := max s.now d
      pins := { s.pins with flapC := false, flapR := false }
      coin := { s.coin with
        purgePulseEnd := none, purgeDone := s.coin.purgeDone + 1
        purgeNext := if s.coin.purgeDone + 1 < 10 then some (max s.now d + s.req.cfg.deadTime) else none
        purgeLast := if s.coin.purgeDone + 1 < 10 then none else some (max s.now d + 800) } })) ∧
    (s.coin.purgeLast = some d → exec .purgeEnd s = .next (refreshPins { s with
      now := max s.now d
      start := { s.start with phase := .settling }
      coin := { s.coin with purgeLast := none, purgeStarted := false, purgeDone := 0 }
      tamper := { s.tamper with settling := .settling, settleCount := 0, lastScan := some (max s.now d) } }))

/-! ### Rating (02) -/

/-- The unit charge of a rate R, a step S and an increment K is K times the ceiling of (R × S) / (60 × K): the least multiple
of K that, 60 times over, covers R × S. A LOCAL band is stored with its two unit charges, each limited to 99,999, and is
CLAMPED when one was larger. What else the shadow of a bank image takes from it (R53): from the header the version, the
off-peak window, K by its code, W and G; from each band entry its mode, the high half of byte 0 whatever its bits 2 and 3 are
(the model's choice, log 31), the FREE and BARRED marks, I, P0, S, D and, for METER, V; from each prefix entry its digits,
band index, minimum and maximum length. -/
def Obligations.UnitChargeAndShadow : Prop :=
  (∀ r s k : Nat, 0 < k →
    k ∣ unitChargeExact r s k ∧ r * s ≤ 60 * unitChargeExact r s k ∧
    (∀ u, k ∣ u → r * s ≤ 60 * u → unitChargeExact r s k ≤ u)) ∧
  (∀ (t : List Byte) (i : Nat), byteAt t (32 + 16 * i) / 16 = 0 →
    let k := incrementOf (byteAt t 10)
    let peak := unitChargeExact (decimalVal t (32 + 16 * i + 6) 6) (be2 t (32 + 16 * i + 12)) k
    let off := unitChargeExact (decimalVal t (32 + 16 * i + 9) 6) (be2 t (32 + 16 * i + 12)) k
    (bandAt t i).uPeak = min peak 99999 ∧ (bandAt t i).uOff = min off 99999 ∧
    ((bandAt t i).clamped = true ↔ 99999 < peak ∨ 99999 < off)) ∧
  (∀ (t : List Byte) (i : Nat),
    let o := 32 + 16 * i
    let b := bandAt t i
    (byteAt t o / 16 = 0 → b.mode = .localBand) ∧
    (byteAt t o / 16 = 1 → b.mode = .meter ∧ b.pulseValue = decimalVal t (o + 6) 6 ∧ b.clamped = false) ∧
    (b.free = true ↔ byteAt t o % 2 = 1) ∧ (b.barred = true ↔ byteAt t o / 2 % 2 = 1) ∧
    b.initial = decimalVal t (o + 1) 6 ∧ b.delay = be2 t (o + 4) ∧ b.stepLen = be2 t (o + 12) ∧
    b.deposit = decimalVal t (o + 14) 4) ∧
  (∀ t : List Byte,
    let x := shadowOf t
    x.version = be2 t 2 ∧ x.offStart = be2 t 6 ∧ x.offEnd = be2 t 8 ∧
    x.increment = incrementOf (byteAt t 10) ∧ x.factor = byteAt t 11 ∧ x.grace = byteAt t 12 ∧
    (List.range 7).map incrementOf = [1, 2, 5, 10, 20, 50, 100] ∧
    x.bands.length = byteAt t 4 ∧ (∀ i < byteAt t 4, x.bands[i]? = some (bandAt t i)) ∧
    x.routes.length = byteAt t 5 ∧ (∀ i < byteAt t 5,
      let o := 32 + 16 * byteAt t 4 + 12 * i
      x.routes[i]? = some ⟨(List.range (byteAt t o)).map (codeAt t (o + 1)), byteAt t (o + 5), byteAt t (o + 6),
        byteAt t (o + 7)⟩))

/-- The charge of a unit of a LOCAL call: with the clock set, the off-peak charge while the day-minute lies in the off-peak
window, which may run over midnight and is empty when its ends are equal; else the peak charge. -/
def Obligations.PeakAndOffPeak : Prop :=
  ∀ (x : RatingContext) (c : Clock), x.mode = .localBand →
    unitNow x c =
      if c.isSet = true ∧
          ((x.offStart < x.offEnd ∧ x.offStart ≤ c.sec / 60 ∧ c.sec / 60 < x.offEnd) ∨
           (x.offEnd < x.offStart ∧ (x.offStart ≤ c.sec / 60 ∨ c.sec / 60 < x.offEnd)))
      then x.uOff else x.uPeak

/-- The debit in CONNECTED. Banked credit that covers u pays it; banked credit that is short commits one coin more and the
comparison is made again; with no coin left to commit, C takes u, O what B lacks, B is 0, the low-credit flag is set, the
grace timer starts and the call is in GRACE. Then the low-credit flag is set when the available credit is below the
threshold. A debit in GRACE makes no collect request: the charge is added to C and to O. -/
def Obligations.DebitInConnectedAndGrace : Prop :=
  (∀ (u : Nat) (x : RatingContext) (s : State), s.call.st = .connected →
       let test (y : State) : State :=
         if y.acct.available < threshold x y.clock then { y with acct := { y.acct with lowCredit := true } } else y
       let c : Account := { s.acct with c := satAdd 999999 s.acct.c u, sat := s.acct.sat || decide (999999 < s.acct.c + u) }
       (u ≤ s.acct.b → debit u x s = test { s with acct := { c with b := s.acct.b - u } }) ∧
       (∀ (v : Nat) (t : State), s.acct.b < u → collectRequest s = (some v, t) → debit u x s = debit u x t) ∧
       (∀ t : State, s.acct.b < u → collectRequest s = (none, t) → debit u x s = test { s with
         acct := { c with o := u - s.acct.b, b := 0, lowCredit := true }
         rate := { s.rate with graceEnd := some (s.now + 1000 * x.grace) }
         call := { s.call with st := .grace } })) ∧
  (∀ (u : Nat) (x : RatingContext) (s : State), s.call.st = .grace →
       debit u x s = { s with acct := { s.acct with
         c := satAdd 999999 s.acct.c u, o := satAdd 999999 s.acct.o u
         sat := (s.acct.sat || decide (999999 < s.acct.c + u)) || decide (999999 < s.acct.o + u) } })

/-- Every debit, in CONNECTED and in GRACE, keeps B + E + C - O while no field saturates and E holds the value of the coins
that can be committed; it changes neither the coins inserted nor what was refunded, held or carried in. -/
def Obligations.DebitKeepsTheBalance : Prop :=
  ∀ (u : Nat) (x : RatingContext) (s : State),
    (s.call.st = .connected ∧ s.acct.o = 0) ∨ s.call.st = .grace →
    creditSum s.coin.escrow ≤ s.acct.e → s.acct.c + u ≤ 999999 → s.acct.o + u ≤ 999999 →
    let t := debit u x s
    t.acct.b + t.acct.e + t.acct.c + s.acct.o = s.acct.b + s.acct.e + s.acct.c + t.acct.o ∧
    t.acct.c = s.acct.c + u ∧
    t.acct.inserted = s.acct.inserted ∧ t.acct.refunded = s.acct.refunded ∧ t.acct.held = s.acct.held ∧
    t.acct.carryIn = s.acct.carryIn ∧ t.acct.shortfall = s.acct.shortfall ∧ t.acct.sat = s.acct.sat

/-- CHARGING_STEP while charging runs: the charge of the period is debited, unless it is 0, the unit is counted, and the next
step starts one step length after this one was due. METER_PULSE of a charged METER call in CONNECTED or GRACE, passed by the
line: the pulse value is debited, unless it is 0, and the unit is counted; of a LOCAL call it is ignored. That a step or a
pulse of 0 makes no debit is the model's reading (log 14). -/
def Obligations.StepsAndPulsesAreCharged : Prop :=
  ∀ (s : State) (x : RatingContext), s.start.rstHeld = false → s.rate.ctx = some x →
    let counted (y : State) : State := { y with acct := { y.acct with units := bump 65535 y.acct.units } }
    (∀ due, s.rate.nextStep = some due → s.call.st = .connected ∨ s.call.st = .grace →
      let s' : State := { s with now := max s.now due, rate := { s.rate with nextStep := some (due + 1000 * x.stepLen) } }
      exec .chargingStep s = .next (refreshPins (counted
        (if unitNow x s.clock = 0 then s' else debit (unitNow x s.clock) x s')))) ∧
    (s.line.owner = .call → s.line.st = .answered → x.mode = .meter → x.uncharged = false →
      s.call.st = .connected ∨ s.call.st = .grace →
      exec .meterPulse s = .next (refreshPins (counted (if x.pulseValue = 0 then s else debit x.pulseValue x s)))) ∧
    (x.mode = .localBand → exec .meterPulse s = .next (refreshPins s))

/-- What a CREDIT coin that reaches escrow brings about. A coin in GRACE is collected at once, when it can be: what is owed
is paid first and the rest is banked; with nothing left owed the grace timer stops, the call is back in CONNECTED, and the
low-credit flag is cleared when the available credit reaches the threshold. In COLLECT, with the buffer empty and the hold
flag clear, the off-hook hold timer restarts from its full time. In AWAIT_DEPOSIT the call enters DIALLING with a record, the
deposit timer stopped, once the available credit reaches the deposit. In CONNECTED a charged call's low-credit flag is cleared
when the available credit, B + E up to 999,999, reaches the threshold, the next unit's charge times W. In every other state,
and short of these bounds, nothing follows. -/
def Obligations.CreditCoinByCallState : Prop :=
  (∀ (s t : State) (v : Nat), s.call.st = .grace →
    (collectRequest s = (none, t) → afterCredit s = s) ∧
    (collectRequest s = (some v, t) →
      (v < s.acct.o → afterCredit s = { t with acct := { t.acct with o := s.acct.o - v, b := t.acct.b - v } }) ∧
      (s.acct.o ≤ v →
        let y : State := { t with
          acct := { t.acct with o := 0, b := t.acct.b - s.acct.o }
          rate := { s.rate with graceEnd := none }
          call := { s.call with st := .connected } }
        afterCredit s = if ∃ x, s.rate.ctx = some x ∧ x.uncharged = false ∧ threshold x s.clock ≤ y.acct.available
          then { y with acct := { y.acct with lowCredit := false } } else y))) ∧
  (∀ s : State,
    (s.call.st = .collect →
      (s.num.buffer = [] → s.call.holdFlag = false → afterCredit s = { s with call := { s.call with
        holdEnd := some (s.now + 1000 * s.req.cfg.offhookHold) } }) ∧
      (s.num.buffer ≠ [] ∨ s.call.holdFlag = true → afterCredit s = s)) ∧
    (s.call.st = .awaitDeposit →
      (s.call.deposit ≤ s.acct.available → afterCredit s = dialRecorded s) ∧
      (s.acct.available < s.call.deposit → afterCredit s = s)) ∧
    (s.call.st = .connected →
      let clears : Prop := ∃ x, s.rate.ctx = some x ∧ x.uncharged = false ∧ threshold x s.clock ≤ s.acct.available
      (clears → afterCredit s = { s with acct := { s.acct with lowCredit := false } }) ∧
      (¬ clears → afterCredit s = s)) ∧
    (s.call.st ≠ .collect → s.call.st ≠ .awaitDeposit → s.call.st ≠ .connected → s.call.st ≠ .grace → afterCredit s = s) ∧
    s.acct.available = min 999999 (s.acct.b + s.acct.e)) ∧
  (∀ (x : RatingContext) (c : Clock),
    threshold x c = unitNow x c * x.factor ∧ (x.mode = .meter → unitNow x c = x.pulseValue))

/-- Answer: the call is CONNECTED, its answer timers stop, the answer time is noted. A charged call is debited the initial
charge, with the low-credit test of every debit; then a METER call answered by a pulse is charged that pulse, and a LOCAL
call starts its unit timer, with the first step at once when its delay is 0. An initial charge of 0 changes nothing in a
LOCAL call, and is debited with its test in a METER call; a pulse or step of 0 makes no debit (the model's reading, log 14). An uncharged call
is debited nothing. Last, the call's OPEN record is handed over with the figures then, or with PFW asserted its checkpoint,
which holds O as shortfall, C - O as consumed, and B + E; a call without a record hands over none. -/
def Obligations.AnswerStartsCharging : Prop :=
  ∀ (kind : AnswerKind) (s : State),
    let t : State := { s with
      call := { s.call with st := .connected, answerEnd := none, assumedEnd := none, answered := true, answeredAt := some s.now }
      line := { s.line with st := if s.line.st = .awaitAnswer then .answered else s.line.st } }
    let counted (y : State) : State := { y with acct := { y.acct with units := bump 65535 y.acct.units } }
    let opened (a : Account) : Figures := ⟨a.carryIn, a.inserted, a.c, 0, 0, 0, 0, 0, 0, a.units, a.sat⟩
    let checkpoint (a : Account) : Figures :=
      ⟨a.carryIn, a.inserted, a.c, a.o, a.c - a.o, 0, a.refunded, satAdd 999999 a.b a.e, 0, a.units, a.sat⟩
    let record (y : State) : State := match s.call.seq with
      | none => y
      | some q =>
        if s.pfw = true then
          handRecord ⟨q, .checkpoint, callRecordBody q .checkpoint .powerFail y.call y.rate.ctx 0 (checkpoint y.acct)⟩ y
        else handRecord ⟨q, .openRec, callRecordBody q .openRec .none y.call y.rate.ctx 0 (opened y.acct)⟩ y
    (s.rate.ctx = none → takeAnswer kind s = record t) ∧
    (∀ x : RatingContext, s.rate.ctx = some x →
      let paid : State := if x.mode = .localBand ∧ x.initial = 0 then t else debit x.initial x t
      (x.uncharged = true → takeAnswer kind s = record t) ∧
      (x.uncharged = false → x.mode = .meter → kind = .pulse → takeAnswer kind s =
        record (counted (if x.pulseValue = 0 then paid else debit x.pulseValue x paid))) ∧
      (x.uncharged = false → x.mode = .meter → kind ≠ .pulse → takeAnswer kind s = record paid) ∧
      (x.uncharged = false → x.mode = .localBand → 0 < x.delay → takeAnswer kind s =
        record { paid with rate := { paid.rate with nextStep := some (s.now + 1000 * x.delay) } }) ∧
      (x.uncharged = false → x.mode = .localBand → x.delay = 0 →
        let one := counted (if unitNow x paid.clock = 0 then paid else debit (unitNow x paid.clock) x paid)
        takeAnswer kind s = record { one with rate := { one.rate with nextStep := some (s.now + 1000 * x.stepLen) } }))

/-! ### Keys, numbers and routing (03) -/

/-- KEY_EVENT joins the queue of 8, or is counted as dropped. KEY_TAKE alone takes keys from it (the model's choice, log 31).
KEY_TAKE takes none in SEIZING; in every other state it takes the head of the queue and acts on it by the call state. In
COLLECT a digit, or * as code 10, is stored while the buffer holds fewer than 20, restarts the silence timer of 4 s, stops
the off-hook hold timer and is analysed; past 20 it is discarded. A # in COLLECT that completes the number is its end mark,
and else it is stored as code 11. CLEAR empties the buffer and, if it was not empty, restarts the hold timer. In CONNECTED a
digit, * or # goes to the sender as a tone digit unless the dial method is decadic, while the call owns an ANSWERED line with
room for it. FOLLOW_ON in CONNECTED and AFTER_CALL makes the follow-on; the rest is discarded. -/
def Obligations.KeysByCallState : Prop :=
  (∀ s : State, s.start.rstHeld = false →
    (∀ k : Key, exec (.keyEvent k) s = .next (refreshPins { s with num :=
      if s.num.keys.length < 8 then { s.num with keys := s.num.keys ++ [k] }
      else { s.num with dropped := bump 255 s.num.dropped } })) ∧
    (s.num.keys = [] ∨ s.call.st = .seizing → exec .keyTake s = .next (refreshPins s)) ∧
    (∀ (k : Key) (rest : List Key), s.num.keys = k :: rest →
      let t : State := { s with num := { s.num with keys := rest } }
      let ended := completesOn s.tariff.shadow.routes s.num.buffer
      (s.call.st = .idle ∨ s.call.st = .parked ∨ s.call.st = .awaitDeposit ∨ s.call.st = .dialling ∨ s.call.st = .ringing ∨
          s.call.st = .grace ∨ s.call.st = .clearing ∨ (s.call.st = .afterCall ∧ k ≠ .followOn) ∨
          (s.call.st = .connected ∧ k ≠ .followOn ∧ (k = .clear ∨ s.req.cfg.dialMethod = .decadic)) ∨
          (s.call.st = .collect ∧ k = .followOn) →
        exec .keyTake s = .next (refreshPins (settle t))) ∧
      (∀ c : Nat, (∃ d : Fin 10, k = .digit d ∧ c = d.val) ∨ (k = .star ∧ c = 10) ∨ (k = .hash ∧ c = 11) →
        (s.call.st = .collect → k ≠ .hash ∨ ended = none →
          (s.num.buffer.length < 20 → exec .keyTake s = .next (refreshPins (settle (analyse { t with
            num := { t.num with buffer := s.num.buffer ++ [c], silenceEnd := some (s.now + 4000) }
            call := { s.call with holdEnd := none } })))) ∧
          (20 ≤ s.num.buffer.length → exec .keyTake s = .next (refreshPins (settle t)))) ∧
        (s.call.st = .connected → s.req.cfg.dialMethod = .tone →
          exec .keyTake s = .next (refreshPins (settle (appendTone c t))))) ∧
      (∀ r, k = .hash → s.call.st = .collect → ended = some r →
        exec .keyTake s = .next (refreshPins (settle (completeNumber r t)))) ∧
      (k = .clear → s.call.st = .collect → exec .keyTake s = .next (refreshPins (settle { t with
        num := { t.num with buffer := [], silenceEnd := none }
        call := if s.num.buffer ≠ [] ∧ s.call.holdFlag = false
          then { s.call with holdEnd := some (s.now + 1000 * s.req.cfg.offhookHold) }
          else if s.num.buffer ≠ [] then { s.call with holdEnd := none } else s.call }))) ∧
      (k = .followOn → s.call.st = .connected ∨ s.call.st = .afterCall →
        exec .keyTake s = .next (refreshPins (settle (takeFollowOn t)))))) ∧
  (∀ (c : Nat) (s : State),
    let t : State := { s with line := { s.line with
      origin := .afterAnswer, mode := .tone, tOn := s.req.cfg.toneOn, tOff := s.req.cfg.toneOff
      queue := s.line.queue ++ [c] } }
    let taken : Prop := s.line.owner = .call ∧ s.line.st = .answered ∧ s.line.queue.length < 80
    (¬ taken → appendTone c s = s) ∧
    (taken → s.line.phase ≠ .idle → appendTone c s = t) ∧
    (taken → s.line.phase = .idle → appendTone c s = startDigit t) ∧
    (taken → s.line.phase = .idle → s.line.queue = [] → appendTone c s = { t with
      pins := { s.pins with toneOn := true, td := c }
      line := { t.line with phase := .toneOn, phaseEnd := some (s.now + s.req.cfg.toneOn) } }))

/-- The three tests after a digit is stored. A buffer equal to an emergency entry is routed EMERGENCY at once. Else, when no
prefix begins the buffer, none is begun by it, and no emergency entry is begun by it, the number is refused NO_ROUTE at
once: counted, the buffer emptied, the off-hook hold timer restarted. Else the buffer is complete on the entry with the
longest prefix that begins it when its length is that entry's maximum; shorter than that, and where it is only the beginning
of a prefix or an emergency entry, analysis goes on and nothing changes. A number complete on an entry is routed to the
entry's band. -/
def Obligations.NumberAnalysis : Prop :=
  (∀ s : State,
    let b := s.num.buffer
    let routes := s.tariff.shadow.routes
    (b ∈ s.req.cfg.emergency → analyse s = routeEmergency s) ∧
    (b ∉ s.req.cfg.emergency →
      ((∀ r ∈ routes, ¬ r.digits <+: b ∧ ¬ (b <+: r.digits ∧ b.length < r.digits.length)) →
        (∀ e ∈ s.req.cfg.emergency, ¬ (b <+: e ∧ b.length < e.length)) →
        analyse s = { s with
          num := { s.num with refused := bump 65535 s.num.refused, lastRefusal := .noRoute, buffer := [], silenceEnd := none }
          call := { s.call with
            holdEnd := if s.call.holdFlag = true then none else some (s.now + 1000 * s.req.cfg.offhookHold) } }) ∧
      ((∀ r ∈ routes, ¬ r.digits <+: b) →
        (∃ r ∈ routes, b <+: r.digits ∧ b.length < r.digits.length) ∨
          (∃ e ∈ s.req.cfg.emergency, b <+: e ∧ b.length < e.length) →
        analyse s = s) ∧
      (∀ r ∈ routes, r.digits <+: b → (∀ x ∈ routes, x ≠ r → x.digits <+: b → x.digits.length < r.digits.length) →
        analyse s = if b.length = r.maxLen then completeNumber r s else s))) ∧
  (∀ (s : State) (r : Route) (x : Band), s.tariff.shadow.bands[r.band]? = some x →
    completeNumber r s = routeBand r.band x s)

/-- The outcome of a number completed on a band, in the order of the routing table: BARRED; a block reason without FREE;
UNDIALLABLE, with * or # under decadic; FREE, with the ring's limit of 128; a paid band with the deposit covered, and
without, which waits 30 s for it with the call's other timers stopped. An emergency number is routed uncharged, without a record once the ring holds 128. A call
with a record takes the next sequence; the almost-full flag is evaluated again, and RING_FULL is raised from 124 on. DIALLING
notes the dialling time, stops the call's timers and hands the number to the sender. -/
def Obligations.RoutingOrder : Prop :=
  (∀ (k : Nat) (x : Band) (s : State),
    let refused (r : Refusing) : State := { s with
      num := { s.num with refused := bump 65535 s.num.refused, lastRefusal := r, buffer := [], silenceEnd := none }
      call := { s.call with
        holdEnd := if s.call.holdFlag = true then none else some (s.now + 1000 * s.req.cfg.offhookHold) } }
    let routed (kind : RouteKind) : State := { s with
      rate := { s.rate with ctx := some (contextOf s.tariff k x) }
      call := { s.call with kind := kind, number := s.num.buffer } }
    let blocked := s.call.reasons ≠ Reasons.empty ∧ x.free = false
    let undiallable := (∃ d ∈ s.num.buffer, 10 ≤ d) ∧ s.req.cfg.dialMethod = .decadic
    (x.barred = true → routeBand k x s = refused .refusedBarred) ∧
    (x.barred = false →
      (blocked → routeBand k x s = refused .refusedBlocked) ∧
      (¬ blocked →
        (undiallable → routeBand k x s = refused .undiallable) ∧
        (¬ undiallable →
          (x.free = true → s.call.unacked < 128 → routeBand k x s = dialRecorded (routed .free)) ∧
          (x.free = true → 128 ≤ s.call.unacked → routeBand k x s = refused .refusedBlocked) ∧
          (x.free = false → x.deposit ≤ s.acct.available → routeBand k x s = dialRecorded (routed .paid)) ∧
          (x.free = false → s.acct.available < x.deposit →
            routeBand k x s = { routed .paid with
              num := { s.num with silenceEnd := none }
              call := { s.call with
                kind := .paid, number := s.num.buffer, st := .awaitDeposit, deposit := x.deposit
                depositEnd := some (s.now + 30000), grantEnd := none, answerEnd := none, assumedEnd := none
                holdEnd := none, followEnd := none, holdFlag := false
                duration := if s.call.st = .connected ∨ s.call.st = .grace then durationNow s else s.call.duration } }))))) ∧
  (∀ s : State,
    let t : State := { s with
      rate := { s.rate with ctx := some (emergencyContext s.tariff) }
      call := { s.call with kind := .emergency, number := s.num.buffer } }
    (emergencyContext s.tariff).uncharged = true ∧ (emergencyContext s.tariff).band = none ∧
    (emergencyContext s.tariff).bank = s.tariff.bank ∧ (emergencyContext s.tariff).version = s.tariff.version ∧
    (∀ (k : Nat) (x : Band), contextOf s.tariff k x =
      { bank := s.tariff.bank, version := s.tariff.version, band := some k, mode := x.mode, uncharged := x.free
        initial := x.initial, delay := x.delay, stepLen := x.stepLen, uPeak := x.uPeak, uOff := x.uOff
        pulseValue := x.pulseValue, offStart := s.tariff.shadow.offStart, offEnd := s.tariff.shadow.offEnd
        factor := s.tariff.shadow.factor, grace := s.tariff.shadow.grace }) ∧
    (s.call.unacked < 128 → routeEmergency s = dialRecorded t) ∧
    (128 ≤ s.call.unacked → routeEmergency s =
      dialNumber { t with call := { t.call with unrecorded := bump 255 s.call.unrecorded } })) ∧
  (∀ s : State,
    let u : Nat := (((s.call.nextSeq : Int) - s.call.ackedSeq) % 65536).toNat
    dialRecorded s = dialNumber { s with call := { s.call with
      seq := some s.call.nextSeq, nextSeq := (s.call.nextSeq + 1) % 65536
      almostFull := decide (128 - s.req.cfg.ringMargin ≤ u)
      reasons := { s.call.reasons with ringFull := s.call.reasons.ringFull || decide (124 ≤ u) } } }) ∧
  (∀ s : State, s.call.st ≠ .connected → s.call.st ≠ .grace →
    dialNumber s = tellSent (loadSender .call .number s.req.cfg.dialMethod s.call.number { s with
      num := { s.num with silenceEnd := none }
      call := { s.call with
        st := .dialling, dialTime := s.stamp, grantEnd := none, depositEnd := none, answerEnd := none, assumedEnd := none
        holdEnd := none, followEnd := none, holdFlag := false } }))

/-! ### The call (04) -/

/-- OFF_HOOK: in READY and IDLE the call begins: the account is opened, the line requested, and the grant timer of 10 s
started; while a report owns the line the call waits. Keys that wait stay in the queue (the model's choice, log 31). In every
other state the hook state alone changes. A hook that is off already stays so. ON_HOOK ends the condition of OFFHOOK_HOLD; in
READY, IDLE drops the waiting mark, CLEARING goes on, PARKED goes to IDLE, and every other state clears with CALLER_CLEARED.
HANDSET_LOSS with the hook off opens CORD_CUT; IDLE with the waiting mark goes to PARKED, and a call from SEIZING to
AFTER_CALL clears with HANDSET_LOST. CONT_RESTORED ends the condition of CORD_CUT. -/
def Obligations.HookAndHandset : Prop :=
  (∀ s : State, s.start.rstHeld = false →
       (s.call.hook = .off → exec .offHook s = .next (refreshPins s)) ∧
       (s.call.hook = .on →
         (s.start.phase ≠ .ready ∨ s.call.st ≠ .idle →
           exec .offHook s = .next (refreshPins (settle { s with call := { s.call with hook := .off } }))) ∧
         (s.start.phase = .ready → s.call.st = .idle → s.line.owner = .report →
           exec .offHook s = .next (refreshPins (settle { s with call := { s.call with hook := .off, waiting := true } }))) ∧
         (s.start.phase = .ready → s.call.st = .idle → s.line.owner ≠ .report →
           exec .offHook s = .next (refreshPins (settle (lineGrant { s with
             acct := Account.zero
             rate := { s.rate with ctx := none }
             call := { s.call with
               hook := .off, st := .seizing, waiting := false, followOn := false, grantEnd := some (s.now + 10000)
               seq := none, kind := .paid, number := [], deposit := 0, dialTime := Stamp.zero
               answered := false, answeredAt := none, duration := 0 }
             line := { s.line with callReq := true } })))))) ∧
  (∀ s : State, s.start.rstHeld = false →
       let on := endCondition .offhookHold { s with call := { s.call with hook := .on } }
       let cut := openIncident .cordCut s
       (s.call.hook = .on → exec .onHook s = .next (refreshPins s)) ∧
       (s.call.hook = .off →
         (s.start.phase ≠ .ready ∨ s.call.st = .clearing → exec .onHook s = .next (refreshPins (settle on))) ∧
         (s.start.phase = .ready → s.call.st = .idle → exec .onHook s =
           .next (refreshPins (settle { on with call := { on.call with waiting := false } }))) ∧
         (s.start.phase = .ready → s.call.st = .parked → exec .onHook s = .next (refreshPins (settle (enterIdle on)))) ∧
         (s.start.phase = .ready → s.call.st ≠ .idle → s.call.st ≠ .parked → s.call.st ≠ .clearing →
           exec .onHook s = .next (refreshPins (settle (enterClearing .callerCleared on))))) ∧
       (s.call.hook = .on → exec .handsetLoss s = .next (refreshPins s)) ∧
       (s.call.hook = .off →
         (s.call.st = .clearing ∨ s.call.st = .parked ∨ (s.call.st = .idle ∧ s.call.waiting = false) →
           exec .handsetLoss s = .next (refreshPins (settle cut))) ∧
         (s.call.st = .idle → s.call.waiting = true → exec .handsetLoss s = .next (refreshPins (settle { cut with
           call := { cut.call with st := .parked, waiting := false }, num := { cut.num with keys := [] } }))) ∧
         (s.call.st ≠ .idle → s.call.st ≠ .parked → s.call.st ≠ .clearing →
           exec .handsetLoss s = .next (refreshPins (settle (enterClearing .handsetLost cut))))) ∧
       exec .contRestored s = .next (refreshPins (endCondition .cordCut s)))

/-- The call's timers run out, each in its state: the grant timer clears with NO_DIALTONE, the answer timer with NO_ANSWER,
the grace timer with CREDIT_EXHAUSTED, the follow-on window with FAR_CLEARED, the deposit timer with NO_DEPOSIT after a
counted refusal; the off-hook hold timer sets the hold flag and opens OFFHOOK_HOLD; the silence timer completes the number
on its candidate, or refuses it with NO_ROUTE. After the off-hook hold timer the line controller asks whether the call may be
preempted: with the owner CALL, a REPORT request present, and the call in COLLECT with its hold flag, the line is released
under a reservation and the call clears with PREEMPTED; else nothing follows. -/
def Obligations.CallTimersRunOut : Prop :=
  (∀ s : State,
    let preempted : Prop := s.line.owner = .call ∧ s.line.reportReq = true ∧ s.call.st = .collect ∧ s.call.holdFlag = true
    (preempted → askPreempt s = enterClearing .preempted (releaseLine .call { s with line := { s.line with
      reservation := true } })) ∧
    (¬ preempted → askPreempt s = s)) ∧
  ∀ (s : State) (d : Nat), s.start.rstHeld = false →
    let t : State := { s with now := max s.now d }
    (s.call.st = .seizing → s.call.grantEnd = some d →
      exec .grantTimeout s = .next (refreshPins (settle (enterClearing .noDialtone t)))) ∧
    (s.call.st = .ringing → s.call.answerEnd = some d →
      exec .answerTimeout s = .next (refreshPins (settle (enterClearing .noAnswer t)))) ∧
    (s.call.st = .grace → s.rate.graceEnd = some d →
      exec .graceExpiry s = .next (refreshPins (settle (enterClearing .creditExhausted t)))) ∧
    (s.call.st = .afterCall → s.call.followEnd = some d →
      exec .followOnWindowExpiry s = .next (refreshPins (settle (enterClearing .farCleared t)))) ∧
    (s.call.st = .awaitDeposit → s.call.depositEnd = some d →
      exec .depositTimeout s = .next (refreshPins (settle (enterClearing .noDeposit
        { t with num := { s.num with refused := bump 65535 s.num.refused, lastRefusal := .noDeposit } })))) ∧
    (s.call.st = .collect → s.call.holdEnd = some d →
      exec .offhookHoldTimeout s = .next (refreshPins (settle (askPreempt (openIncident .offhookHold
        { t with call := { s.call with holdFlag := true, holdEnd := none } }))))) ∧
    (s.call.st = .collect → s.num.silenceEnd = some d →
      (∀ r, completesOn s.tariff.shadow.routes s.num.buffer = some r → exec .silenceTimeout s =
        .next (refreshPins (settle (completeNumber r { t with num := { s.num with silenceEnd := none } })))) ∧
      (completesOn s.tariff.shadow.routes s.num.buffer = none → exec .silenceTimeout s = .next (refreshPins (settle { t with
        num := { s.num with refused := bump 65535 s.num.refused, lastRefusal := .noRoute, buffer := [], silenceEnd := none }
        call := { s.call with holdEnd :=
          (if s.call.holdFlag = true then none else some (max s.now d + 1000 * s.req.cfg.offhookHold)) } }))))

/-- Entry into CLEARING: every timer of the call stops, with the duration count of an answered one; the cause is fixed and the
hold flag cleared; the line request is withdrawn, or the line released with its guard of 1,000 ms; what is owed goes to
shortfall, banked credit is forfeited. Then the return-all: with the escrow not frozen, every HELD CREDIT coin is marked for
return; with no CREDIT coin in it, the return-all is finished at once; with the escrow frozen, it is finished with the coins
held over (`finishFrozen`, which FailedReleases describes; `finishReturnAll` is in ReturnAllCompletesClearing). -/
def Obligations.ClearingClosesTheMoney : Prop :=
  ∀ (cause : EndCause) (s : State),
    let y : State := { s with
      call := { s.call with
        st := .clearing, cause := cause
        duration := (if s.call.st = .connected ∨ s.call.st = .grace then durationNow s else s.call.duration)
        grantEnd := none, depositEnd := none, answerEnd := none, assumedEnd := none, holdEnd := none, followEnd := none
        holdFlag := false }
      num := { s.num with silenceEnd := none }
      rate := { s.rate with nextStep := none, graceEnd := none }
      acct := { s.acct with
        forfeited := s.acct.b, b := 0, shortfall := satAdd 999999 s.acct.shortfall s.acct.o, o := 0, lowCredit := false
        sat := s.acct.sat || decide (999999 < s.acct.shortfall + s.acct.o) }
      line := (if s.line.owner = .call then { s.line with
          callReq := false, owner := .none, st := .guarding, queue := [], phase := .idle, phaseEnd := none, breaks := 0
          loopSuspended := false, reversal := false, dialToneEnd := none, guardEnd := some (s.now + 1000) }
        else { s.line with callReq := false })
      pins := (if s.line.owner = .call then { s.pins with seize := false, toneOn := false, td := 0 } else s.pins) }
    (frozen s = false → (∃ x ∈ s.coin.escrow, x.standing = .credit) → enterClearing cause s = { y with coin := { s.coin with
      returnAll := some 0
      escrow := s.coin.escrow.map fun x =>
        if x.st = .held ∧ x.standing = .credit then { x with st := .releasingReturn } else x } }) ∧
    (frozen s = false → (∀ x ∈ s.coin.escrow, x.standing ≠ .credit) → enterClearing cause s = finishReturnAll y) ∧
    (frozen s = true → enterClearing cause s = finishFrozen y)

/-- A return-all that finishes in CLEARING closes the call: the CLOSED record of a recorded call is handed over with the
closing figures, consumed being C less shortfall, the last end cause is shown, the account is cleared, and the call is PARKED
with the hook off and IDLE with it on. At every entry into IDLE the call no longer waits for the line and the key queue is
emptied; then a pending switch of the tariff is made: its bank, version and shadow become active, TARIFF_FAULT is cleared and
BANK_SWITCH handed over; and then a pending configuration comes into force, CONFIG_FAULT is cleared, and every block takes
its settings, as TariffAndConfigRequests says (in an order that the model chooses, log 31). -/
def Obligations.ReturnAllCompletesClearing : Prop :=
  (∀ s : State,
    let y : State := { s with call := { s.call with st := .idle, waiting := false }, num := { s.num with keys := [] } }
    let configured (z : State) (u : State) : Prop :=
      (∀ c, s.req.reload = .pending → s.req.pendCfg = some c → u = takeSettings { z with
        req := { z.req with cfg := c, defaults := false, pendCfg := none, reload := .none }
        call := { z.call with reasons := { z.call.reasons with configFault := false } } }) ∧
      (s.req.reload ≠ .pending ∨ s.req.pendCfg = none → u = z)
    (∀ x, s.tariff.activation = .pending → s.tariff.pendShadow = some x → configured (handBankSwitch { y with
      call := { y.call with reasons := { y.call.reasons with tariffFault := false } }
      tariff := { s.tariff with
        bank := s.tariff.pendBank, version := s.tariff.pendVersion, shadow := x, clamped := x.clampCount
        activation := .none, pendBank := .a, pendVersion := 0, pendShadow := none } }) (enterIdle s)) ∧
    (s.tariff.activation ≠ .pending ∨ s.tariff.pendShadow = none → configured y (enterIdle s))) ∧
  ∀ s : State, s.call.st = .clearing →
    let t : State := { s with coin := { s.coin with returnAll := none } }
    let a := s.acct
    let rec_ : State := match s.call.seq with
      | none => t
      | some q => handRecord ⟨q, .closed, callRecordBody q .closed s.call.cause s.call s.rate.ctx s.call.duration
          ⟨a.carryIn, a.inserted, a.c, a.shortfall, a.c - a.shortfall, a.forfeited, a.refunded, a.held, a.carryOut, a.units,
            a.sat⟩⟩ t
    let closed : State := { rec_ with
      call := { rec_.call with lastCause := rec_.call.cause, cause := .none, seq := none, followOn := false }
      acct := Account.zero
      rate := { rec_.rate with ctx := none } }
    (rec_.call.hook = .off → finishReturnAll s = { closed with
      call := { closed.call with st := .parked, waiting := false }, num := { closed.num with keys := [] } }) ∧
    (rec_.call.hook = .on → finishReturnAll s = enterIdle closed)

/-- A follow-on: charging ends; the line is released; the new call keeps B and E, with their sum carried in and every other
item of the account 0, and seizes again with the follow-on mark. A recorded call's CLOSED record is handed over: it carries
the cause FOLLOW_ON, what is owed as shortfall, and B + E carried out. The layout of every call record: each item at its
place in 62 bytes, which its check word follows, the five bytes that no item has being 0. -/
def Obligations.FollowOnCarriesTheCredit : Prop :=
  (∀ s : State, s.line.owner = .call →
    let t := takeFollowOn s
    let a : Account := s.acct
    let short := satAdd 999999 a.shortfall a.o
    let x : Figures := ⟨a.carryIn, a.inserted, a.c, short, a.c - short, 0, 0, 0, satAdd 999999 a.b a.e, a.units,
      a.sat || decide (999999 < a.shortfall + a.o)⟩
    let dur := if s.call.st = .connected ∨ s.call.st = .grace then durationNow s else s.call.duration
    t.call.st = .seizing ∧ t.call.followOn = true ∧ t.call.lastCause = .followOn ∧ t.call.seq = none ∧
    t.call.grantEnd = some (s.now + 10000) ∧ t.line.owner = .none ∧ t.line.st = .guarding ∧ t.line.callReq = true ∧
    t.acct = { Account.zero with b := s.acct.b, e := s.acct.e, carryIn := satAdd 999999 s.acct.b s.acct.e } ∧
    t.rate.ctx = none ∧ t.rate.nextStep = none ∧ t.coin = s.coin ∧
    (s.call.seq = none → t.writer = s.writer ∧ t.call.heldRecords = s.call.heldRecords) ∧
    (∀ q, s.call.seq = some q →
      let y := handRecord ⟨q, .closed, callRecordBody q .closed .followOn s.call s.rate.ctx dur x⟩ s
      t.writer = y.writer ∧ t.call.heldRecords = y.call.heldRecords)) ∧
  (∀ (q : Nat) (kind : RecordKind) (cause : EndCause) (c : CallControl) (ctx : Option RatingContext) (dur : Nat) (x : Figures),
    let body := callRecordBody q kind cause c ctx dur x
    let at_ (i n : Nat) : List Byte := (body.drop i).take n
    body.length = 62 ∧ at_ 0x00 2 = w16 q ∧ at_ 0x02 1 = [b8 kind.code] ∧ at_ 0x03 1 = [b8 cause.code] ∧
    at_ 0x04 1 = [b8 c.kind.code] ∧
    (ctx = none → at_ 0x05 4 = [b8 0, b8 0, b8 0, b8 0]) ∧
    (∀ r, ctx = some r → at_ 0x05 1 = [b8 r.bank.code] ∧ at_ 0x06 2 = w16 r.version ∧ at_ 0x08 1 = [b8 (r.band.getD 0)]) ∧
    at_ 0x09 1 = [b8 c.number.length] ∧
    (∀ i < 10, at_ (0x0A + i) 1 = [b8 (c.number.getD (2 * i) 15 * 16 + c.number.getD (2 * i + 1) 15)]) ∧
    at_ 0x14 1 = [b8 ((if c.followOn = true then 1 else 0) + (if c.answered = true then 2 else 0)
      + (if c.dialTime.isSet = true then 4 else 0) + (if x.sat = true then 8 else 0))] ∧
    at_ 0x15 5 = w16 c.dialTime.day ++ w24 c.dialTime.sec ∧ at_ 0x1A 2 = w16 dur ∧
    at_ 0x1C 3 = money6 x.carryIn ∧ at_ 0x1F 3 = money6 x.inserted ∧ at_ 0x22 3 = money6 x.charge ∧
    at_ 0x25 3 = money6 x.shortfall ∧ at_ 0x28 3 = money6 x.consumed ∧ at_ 0x2B 3 = money6 x.forfeited ∧
    at_ 0x2E 3 = money6 x.refunded ∧ at_ 0x31 3 = money6 x.held ∧ at_ 0x34 3 = money6 x.carryOut ∧
    at_ 0x37 2 = w16 x.units ∧ at_ 0x39 5 = [b8 0, b8 0, b8 0, b8 0, b8 0])

/-- ASSUMED_ANSWER_TIMEOUT, REVERSAL_PRESENT and, for a METER call, METER_PULSE in RINGING are the answer, each with its
kind. A reversal in another state is noted and no more. CLEAR_BACK in CONNECTED and GRACE: AFTER_CALL with the follow-on
window of 10 s; charging ends, and what is owed goes to shortfall; in another state the end of the reversal is noted and no
more. On an UNSUPERVISED line a call in CONNECTED or GRACE stays there; that the end of the reversal is noted then as well is
the model's choice (log 31). -/
def Obligations.AnswerAndClearBack : Prop :=
  ∀ (s : State), s.start.rstHeld = false →
    (∀ d, s.call.st = .ringing → s.call.assumedEnd = some d →
      exec .assumedAnswerTimeout s = .next (refreshPins (takeAnswer .assumed { s with now := max s.now d }))) ∧
    (s.line.owner = .call →
      s.line.st = .ready ∨ s.line.st = .sending ∨ s.line.st = .awaitAnswer ∨ s.line.st = .answered →
      (∀ x, s.call.st = .ringing → s.rate.ctx = some x → x.mode = .meter →
        exec .meterPulse s = .next (refreshPins (takeAnswer .pulse s))) ∧
      (s.line.reversal = false →
        let t : State := { s with line := { s.line with reversal := true } }
        exec .reversalPresent s = .next (refreshPins (if s.call.st = .ringing then takeAnswer .reversal t else t)) ∧
        exec .clearBack s = .next (refreshPins s)) ∧
      (s.line.reversal = true →
        let t : State := { s with line := { s.line with reversal := false } }
        exec .reversalPresent s = .next (refreshPins s) ∧
        ((s.call.st ≠ .connected ∧ s.call.st ≠ .grace) ∨ s.req.cfg.supervision = .unsupervised →
          exec .clearBack s = .next (refreshPins t)) ∧
        (s.call.st = .connected ∨ s.call.st = .grace → s.req.cfg.supervision = .supervised → exec .clearBack s = .next (refreshPins { t with
          acct := { s.acct with
            shortfall := satAdd 999999 s.acct.shortfall s.acct.o, o := 0, lowCredit := false
            sat := s.acct.sat || decide (999999 < s.acct.shortfall + s.acct.o) }
          rate := { s.rate with nextStep := none, graceEnd := none }
          num := { s.num with silenceEnd := none }
          call := { s.call with
            st := .afterCall, followEnd := some (s.now + 10000), duration := durationNow s, grantEnd := none
            depositEnd := none, answerEnd := none, assumedEnd := none, holdEnd := none, holdFlag := false } }))))

/-! ### Line and sender (05) -/

/-- GUARD_END releases the line and checks the grant. DIAL_TONE_QUALIFIED in SEIZING makes the line READY: the call enters
COLLECT with an empty buffer and its off-hook hold timer, the keys that wait left to their KEY_TAKEs (the model's choice, log
31), and a report loads its number and is DIALLING. DIAL_TONE_TIMEOUT in SEIZING, and LOOP_LOSS in SEIZING, fail the seizure;
LOOP_LOSS past dial tone, with loop supervision running, loses the line; each releases it, counts it, and clears the call
with NO_DIALTONE or LINE_LOST or fails the report with the same. A call from SEIZING to AFTER_CALL clears; IDLE, PARKED and
CLEARING do not. -/
def Obligations.LineEvents : Prop :=
  (∀ (cause : EndCause) (s : State),
    (s.call.st = .idle ∨ s.call.st = .parked ∨ s.call.st = .clearing → clearCall cause s = s) ∧
    (s.call.st ≠ .idle → s.call.st ≠ .parked → s.call.st ≠ .clearing → clearCall cause s = enterClearing cause s)) ∧
  ∀ s : State, s.start.rstHeld = false →
    let freed (y : State) : State := releaseLine y.line.owner y
    let failed (y : State) : State :=
      { freed y with line := { (freed y).line with seizeFails := bump 255 (freed y).line.seizeFails } }
    let lost : State := { freed s with line := { (freed s).line with lineLosses := bump 255 (freed s).line.lineLosses } }
    (∀ d, s.line.st = .guarding → s.line.guardEnd = some d → exec .guardEnd s = .next (refreshPins (settle (lineGrant
      { s with now := max s.now d, line := { s.line with st := .released, guardEnd := none } })))) ∧
    (s.line.st = .seizing → s.line.owner = .call → s.call.st = .seizing →
      exec .dialToneQualified s = .next (refreshPins (settle { s with
        line := { s.line with st := .ready, dialToneEnd := none }
        num := { s.num with buffer := [], silenceEnd := none }
        call := { s.call with
          st := .collect, grantEnd := none, holdFlag := false
          holdEnd := some (s.now + 1000 * s.req.cfg.offhookHold) } }))) ∧
    (s.line.st = .seizing → s.line.owner = .report →
      exec .dialToneQualified s = .next (refreshPins (settle (tellSent (loadSender .report .number s.req.cfg.dialMethod
        s.dial.number { s with
          line := { s.line with st := .ready, dialToneEnd := none }, dial := { s.dial with st := .dialling } }))))) ∧
    (∀ d, s.line.st = .seizing → s.line.dialToneEnd = some d →
      let y : State := { s with now := max s.now d }
      (s.line.owner = .call → s.call.st = .seizing →
        exec .dialToneTimeout s = .next (refreshPins (settle (enterClearing .noDialtone (failed y))))) ∧
      (s.line.owner = .report →
        exec .dialToneTimeout s = .next (refreshPins (settle (attemptFail .noDialtone (failed y)))))) ∧
    (s.line.owner = .none ∨ s.line.loopSuspended = true → exec .loopLoss s = .next (refreshPins (settle s))) ∧
    (s.line.loopSuspended = false → s.line.st = .seizing →
      (s.line.owner = .call → s.call.st = .seizing →
        exec .loopLoss s = .next (refreshPins (settle (enterClearing .noDialtone (failed s))))) ∧
      (s.line.owner = .report → exec .loopLoss s = .next (refreshPins (settle (attemptFail .noDialtone (failed s)))))) ∧
    (s.line.loopSuspended = false → s.line.st ≠ .seizing →
      (s.line.owner = .call → exec .loopLoss s = .next (refreshPins (settle (clearCall .lineLost lost)))) ∧
      (s.line.owner = .report → exec .loopLoss s = .next (refreshPins (settle (attemptFail .lineLost lost)))))

/-- A release by the owner empties the sender, makes SEIZE and TONEON inactive with code 0 on TD, drops the owner and the
qualified reversal, and starts the guard of 1,000 ms; by a party that is not the owner it changes nothing. A release by
REPORT while the call controller waits for the line clears its mark too, opens the account, and takes it into SEIZING with
its CALL request and its grant timer of 10 s; nothing of an earlier call remains, and keys that wait stay in the queue (the
model's choice, log 31). The grant is made in RELEASED and READY alone: to the only request, or of two to REPORT under a
reservation, else to CALL with the EMERGENCY mark, else to REPORT with the URGENT mark, else to CALL. EMERGENCY: the keys
waiting begin with the digits of an entry of the emergency list. URGENT: an UNREPORTED slot of severity 3 is in the incident
table. -/
def Obligations.ReleaseAndGrant : Prop :=
  ∀ s : State,
    (emergencyMark s = true ↔ ∃ (ds : List (Fin 10)) (rest : List Key),
      ds ≠ [] ∧ ds.map (·.val) ∈ s.req.cfg.emergency ∧ s.num.keys = ds.map Key.digit ++ rest) ∧
    (urgentMark s = true ↔ ∃ k x, s.inc.slots.get k = some x ∧ x.report = .unreported ∧ x.severity = 3) ∧
    (∀ w, s.line.owner = .none ∨ s.line.owner ≠ w → releaseLine w s = s) ∧
    (∀ w, w ≠ .none → s.line.owner = w → w ≠ .report ∨ s.call.waiting = false → releaseLine w s = { s with
      pins := { s.pins with seize := false, toneOn := false, td := 0 }
      line := { s.line with
        owner := .none, st := .guarding, queue := [], phase := .idle, phaseEnd := none, breaks := 0
        loopSuspended := false, reversal := false, dialToneEnd := none, guardEnd := some (s.now + 1000) } }) ∧
    (s.line.owner = .report → s.call.waiting = true → releaseLine .report s = { s with
      pins := { s.pins with seize := false, toneOn := false, td := 0 }
      line := { s.line with
        owner := .none, st := .guarding, queue := [], phase := .idle, phaseEnd := none, breaks := 0
        loopSuspended := false, reversal := false, dialToneEnd := none, guardEnd := some (s.now + 1000), callReq := true }
      acct := Account.zero
      rate := { s.rate with ctx := none }
      call := { s.call with
        st := .seizing, waiting := false, followOn := false, grantEnd := some (s.now + 10000), seq := none, kind := .paid
        number := [], deposit := 0, dialTime := ⟨0, 0, false⟩, answered := false, answeredAt := none, duration := 0 } }) ∧
    (s.line.st ≠ .released ∨ s.start.phase ≠ .ready ∨ (s.line.callReq = false ∧ s.line.reportReq = false) →
      lineGrant s = s) ∧
    (s.line.st = .released → s.start.phase = .ready →
      let seized (l : Line) : Line := { l with st := .seizing, dialToneEnd := some (s.now + 1000 * s.req.cfg.dialToneTimeout) }
      (s.line.callReq = true →
        s.line.reportReq = false ∨ (s.line.reservation = false ∧ (emergencyMark s = true ∨ urgentMark s = false)) →
        lineGrant s = { s with
          pins := { s.pins with seize := true }
          line := seized { s.line with owner := .call, callReq := false }
          call := { s.call with grantEnd := none } }) ∧
      (s.line.reportReq = true →
        s.line.callReq = false ∨ s.line.reservation = true ∨ (emergencyMark s = false ∧ urgentMark s = true) →
        lineGrant s = { s with
          pins := { s.pins with seize := true }
          line := seized { s.line with owner := .report, reportReq := false, reservation := false }
          dial := { s.dial with st := .seizing } }))

/-- The sender's timers. A tone: TONEON goes inactive after the on-time, and after the off-time the digit leaves the queue
and the next one starts with its own code. A decadic digit: each break of 60 ms is followed by a make of 40 ms with SEIZE
active; after the last make the digit leaves, codes 10 and 11 that come to the head are dropped, and the pause of 700 ms,
with loop supervision running, precedes the next digit's breaks. With no digit left the sender is idle. A load is taken from
the line's owner in the line state of its sequence alone, up to 80 codes, and its first digit starts, in DECADIC mode the
first below 10; with none left to send the sender is idle at once. The end of a sequence is told to its owner: a call's
number makes the line AWAIT_ANSWER and the call RINGING, a report's makes it await the ready tone for 20 s, its message the
kiss-off for 5 s. RINGING lasts 120 s at most; a reversal already present is the answer, and so is an assumed-answer delay of
0; the reversal comes first where both hold (the model's deduction, log 28). -/
def Obligations.SenderTimers : Prop :=
  (∀ (s : State) (d : Nat), s.start.rstHeld = false → s.line.phaseEnd = some d →
    let now := max s.now d
    let idle : Line := { s.line with queue := [], phase := .idle, phaseEnd := none, breaks := 0, loopSuspended := false }
    let quiet (l : Line) : State := { s with now := now, pins := { s.pins with toneOn := false, td := 0 }, line := l }
    (s.line.phase = .toneOn → exec .toneOnEnd s = .next (refreshPins { s with
      now := now, pins := { s.pins with toneOn := false }
      line := { s.line with phase := .toneOff, phaseEnd := some (now + s.line.tOff) } })) ∧
    (∀ (x y : Nat) (rest : List Nat), s.line.phase = .toneOff → s.line.mode = .tone → s.line.queue = x :: y :: rest →
      exec .toneOffEnd s = .next (refreshPins { s with
        now := now, pins := { s.pins with toneOn := true, td := y }
        line := { s.line with queue := y :: rest, phase := .toneOn, phaseEnd := some (now + s.line.tOn) } })) ∧
    (∀ x : Nat, s.line.phase = .toneOff → s.line.mode = .tone → s.line.queue = [x] →
      exec .toneOffEnd s = .next (refreshPins (tellSent (quiet idle)))) ∧
    (s.line.phase = .breaking → exec .decadicBreakEnd s = .next (refreshPins { s with
      now := now, pins := { s.pins with seize := true }
      line := { s.line with phase := .making, phaseEnd := some (now + 40) } })) ∧
    (s.line.phase = .making → 1 < s.line.breaks → exec .decadicMakeEnd s = .next (refreshPins { s with
      now := now, pins := { s.pins with seize := false }
      line := { s.line with
        breaks := s.line.breaks - 1, phase := .breaking, phaseEnd := some (now + 60), loopSuspended := true } })) ∧
    (∀ (x : Nat) (rest : List Nat), s.line.phase = .making → s.line.breaks ≤ 1 → s.line.mode = .decadic →
      s.line.queue = x :: rest → (∀ c ∈ rest, 10 ≤ c) → exec .decadicMakeEnd s = .next (refreshPins (tellSent (quiet idle)))) ∧
    (∀ (x y : Nat) (mid rest : List Nat), s.line.phase = .making → s.line.breaks ≤ 1 → s.line.mode = .decadic →
      s.line.queue = x :: mid ++ y :: rest → (∀ c ∈ mid, 10 ≤ c) → y < 10 → exec .decadicMakeEnd s = .next (refreshPins { s with
        now := now
        line := { s.line with
          queue := y :: rest, phase := .pause, phaseEnd := some (now + 700), breaks := 0, loopSuspended := false } })) ∧
    (∀ (x : Nat) (rest : List Nat), s.line.phase = .pause → s.line.mode = .decadic → s.line.queue = x :: rest →
      exec .interDigitPauseEnd s = .next (refreshPins { s with
        now := now, pins := { s.pins with seize := false }
        line := { s.line with
          breaks := if x = 0 then 10 else x, phase := .breaking, phaseEnd := some (now + 60), loopSuspended := true } }))) ∧
  (∀ s : State,
    (s.line.st ≠ .sending ∨ s.line.queue ≠ [] ∨ s.line.phase ≠ .idle → tellSent s = s) ∧
    (s.line.st = .sending → s.line.queue = [] → s.line.phase = .idle →
      (s.line.origin = .number → s.line.owner = .call → s.call.st = .dialling →
        tellSent s = enterRinging { s with line := { s.line with st := .awaitAnswer } }) ∧
      (s.line.origin = .number → s.line.owner = .report → s.dial.st = .dialling → tellSent s = { s with
        line := { s.line with st := .awaitAnswer }
        dial := { s.dial with st := .awaitReady, handEnd := some (s.now + 20000) } }) ∧
      (s.line.origin = .message → s.dial.st = .message → tellSent s = { s with
        line := { s.line with st := .answered }
        dial := { s.dial with st := .awaitKissoff, handEnd := some (s.now + 5000) } }))) ∧
  (∀ (w : LineOwner) (o : SendOrigin) (m : DialMethod) (ds : List Nat) (s : State), o = .number ∨ o = .message →
    let needed : LineState := if o = .number then .ready else .answered
    (s.line.owner ≠ w ∨ s.line.st ≠ needed → loadSender w o m ds s = s) ∧
    (s.line.owner = w → s.line.st = needed →
      let loaded (q : List Nat) : Line := { s.line with
        st := .sending, origin := o, mode := m, tOn := s.req.cfg.toneOn, tOff := s.req.cfg.toneOff, queue := q }
      (∀ (d : Nat) (rest : List Nat), m = .tone → ds.take 80 = d :: rest → loadSender w o m ds s = { s with
        pins := { s.pins with toneOn := true, td := d }
        line := { loaded (d :: rest) with phase := .toneOn, phaseEnd := some (s.now + s.req.cfg.toneOn) } }) ∧
      (∀ (pre : List Nat) (d : Nat) (rest : List Nat), m = .decadic → ds.take 80 = pre ++ d :: rest →
        (∀ c ∈ pre, 10 ≤ c) → d < 10 → loadSender w o m ds s = { s with
          pins := { s.pins with seize := false }
          line := { loaded (d :: rest) with
            breaks := if d = 0 then 10 else d, phase := .breaking, phaseEnd := some (s.now + 60), loopSuspended := true } }) ∧
      (ds = [] ∨ (m = .decadic ∧ ∀ c ∈ ds.take 80, 10 ≤ c) → loadSender w o m ds s = { s with
        pins := { s.pins with toneOn := false, td := 0 }
        line := { loaded [] with phase := .idle, phaseEnd := none, breaks := 0, loopSuspended := false } }))) ∧
  (∀ s : State,
    let assumed : Prop := s.req.cfg.supervision = .unsupervised ∧ ¬ ∃ x, s.rate.ctx = some x ∧ x.mode = .meter
    let t (e : Option Nat) : State := { s with call := { s.call with
      st := .ringing, answerEnd := some (s.now + 120000), assumedEnd := e } }
    (s.line.reversal = false →
      (¬ assumed → enterRinging s = t none) ∧
      (assumed → 0 < s.req.cfg.assumedDelay → enterRinging s = t (some (s.now + 1000 * s.req.cfg.assumedDelay))) ∧
      (assumed → s.req.cfg.assumedDelay = 0 → enterRinging s = takeAnswer .assumed (t (some s.now)))) ∧
    (s.line.reversal = true →
      (¬ assumed → enterRinging s = takeAnswer .reversal (t none)) ∧
      (assumed → enterRinging s = takeAnswer .reversal (t (some (s.now + 1000 * s.req.cfg.assumedDelay))))))

/-! ### Vault accounting (06) -/

/-- DOOR_OPEN: before READY the door state alone follows; from READY on, with the window open the session is AUTHORISED, its
door-open time begins and its phase is that of the box, and with the window closed it is UNAUTHORISED and VAULT_OPEN is
opened. BOX_EVENT: the box state follows; in an AUTHORISED session a removal makes the phase OUT, a replacement makes OUT
EXCHANGED; a removal in an UNAUTHORISED one is a detail of VAULT_OPEN. SERVICE_WINDOW_EXPIRY closes the window; in an
AUTHORISED session VAULT_OVERTIME is opened. DOOR_CLOSE: before READY the door state alone follows; from READY on an
AUTHORISED session whose box was exchanged completes a collection, any other AUTHORISED session is an inspection, and an
UNAUTHORISED one ends the condition of VAULT_OPEN; an incident opened for overtime ends its condition; the session is
CLOSED. A collection advances the sequence, records what came in since the baseline, makes the lifetime counts the baseline
and clears VAULT_FULL, and the fill is computed again. -/
def Obligations.DoorSessions : Prop :=
  (∀ s : State, s.start.rstHeld = false →
       (s.vault.doorOpen = true → exec .doorOpen s = .next (refreshPins s)) ∧
       (s.vault.doorOpen = false →
         (s.start.phase ≠ .ready →
           exec .doorOpen s = .next (refreshPins { s with vault := { s.vault with doorOpen := true } })) ∧
         (s.start.phase = .ready → s.vault.windowEnd.isSome = true →
           exec .doorOpen s = .next (refreshPins (settle { s with vault := { s.vault with
             doorOpen := true, session := .authorised, openedAt := s.now, overtime := false
             boxPhase := if s.vault.boxPresent = true then .inPlace else .out } }))) ∧
         (s.start.phase = .ready → s.vault.windowEnd = none →
           exec .doorOpen s = .next (refreshPins (settle (openIncident .vaultOpen
             { s with vault := { s.vault with doorOpen := true, session := .unauthorised } }))))) ∧
       (∀ p : Bool, s.vault.boxPresent = p → exec (.boxEvent p) s = .next (refreshPins s)) ∧
       (∀ p : Bool, s.vault.boxPresent ≠ p →
         let t : State := { s with vault := { s.vault with boxPresent := p } }
         (s.vault.session = .closed → exec (.boxEvent p) s = .next (refreshPins t)) ∧
         (s.vault.session = .authorised → exec (.boxEvent p) s = .next (refreshPins { t with vault := { t.vault with
           boxPhase := if p = false then .out else if s.vault.boxPhase = .out then .exchanged else s.vault.boxPhase } })) ∧
         (s.vault.session = .unauthorised →
           exec (.boxEvent p) s = .next (refreshPins (if p = true then t else addDetail .vaultOpen t)))) ∧
       (∀ d, s.vault.windowEnd = some d →
         let t : State := { s with now := max s.now d, vault := { s.vault with windowEnd := none } }
         (s.vault.session ≠ .authorised → exec .serviceWindowExpiry s = .next (refreshPins (settle t))) ∧
         (s.vault.session = .authorised → exec .serviceWindowExpiry s = .next (refreshPins (settle (openIncident .vaultOvertime
           { t with vault := { t.vault with overtime := true } })))))) ∧
  (∀ s : State, s.start.rstHeld = false →
       let t : State := { s with vault := { s.vault with doorOpen := false } }
       let ended (y : State) : State :=
         let z := if y.vault.overtime = true then endCondition .vaultOvertime { y with vault := { y.vault with overtime := false } }
           else y
         { z with vault := { z.vault with session := .closed, boxPhase := .inPlace } }
       (s.vault.doorOpen = false → exec .doorClose s = .next (refreshPins s)) ∧
       (s.vault.doorOpen = true →
         (s.start.phase ≠ .ready → exec .doorClose s = .next (refreshPins t)) ∧
         (s.start.phase = .ready →
           (s.vault.session = .closed ∨ (s.vault.session = .authorised ∧ s.vault.boxPhase ≠ .exchanged) →
             exec .doorClose s = .next (refreshPins (settle (ended t)))) ∧
           (s.vault.session = .unauthorised →
             exec .doorClose s = .next (refreshPins (settle (ended (endCondition .vaultOpen t))))) ∧
           (s.vault.session = .authorised → s.vault.boxPhase = .exchanged →
             let v := { s.vault with doorOpen := false, collSeq := (s.vault.collSeq + 1) % 65536 }
             let r : Collection := ⟨v.collSeq, .collection, v.epoch, s.stamp, true, v.sat, v.since,
               min 65535 ((s.now - s.vault.openedAt) / 1000)⟩
             let u := recomputeFill { s with
               vault := { v with base := v.life }, call := { s.call with reasons := { s.call.reasons with vaultFull := false } } }
             exec .doorClose s = .next (refreshPins (settle (ended (handCollection r ⟨u.vault.base, u.vault.epoch, u.vault.collSeq⟩
               { u with vault := { u.vault with summary := some ⟨r.seq, r.since.value, .collection⟩ } }))))))))

/-! ### Tamper sensing (07) -/

/-- The arithmetic of a scan: the filter moves by the difference divided by 2 to the power k, rounding down; the compensated
value is the filtered one less an eighth of the weighted drift, rounded toward zero and kept within a count; a level rises
one step after n scans in a row at the next level's entry threshold, falls one step after n scans in a row below its own
threshold less its eighth part, and holds with both counters 0 in between. -/
def Obligations.ScanArithmetic : Prop :=
  (∀ k r f : Nat, (approach k r f : Int) = f + Int.fdiv ((r : Int) - f) (2 ^ k)) ∧
  (∀ (w f : Nat) (g : Int), compensate w f g = (max 0 (min 65535 ((f : Int) - Int.tdiv (g * w) 8))).toNat) ∧
  (∀ (n now : Nat) (t : Thresholds) (d : Int) (x : Channel), 1 ≤ n → t.near < t.contact → t.contact < t.forced →
    let y := levelStep n now t d x
    let up (e : Nat) (l : Level) : Prop := (e : Int) ≤ d →
      (n ≤ x.rising + 1 → y.level = l ∧ y.rising = 0 ∧ y.falling = 0) ∧
      (x.rising + 1 < n → y.level = x.level ∧ y.rising = x.rising + 1 ∧ y.falling = 0)
    let down (e : Nat) (l : Level) : Prop := d < ((e - e / 8 : Nat) : Int) →
      (n ≤ x.falling + 1 → y.level = l ∧ y.rising = 0 ∧ y.falling = 0) ∧
      (x.falling + 1 < n → y.level = x.level ∧ y.falling = x.falling + 1 ∧ y.rising = 0)
    let hold (lo hi : Int) : Prop := lo ≤ d → d < hi → y.level = x.level ∧ y.rising = 0 ∧ y.falling = 0
    (x.level = .quiet → up t.near .near ∧ (d < t.near → y.level = .quiet ∧ y.rising = 0 ∧ y.falling = 0)) ∧
    (x.level = .near → up t.contact .contact ∧ down t.near .quiet ∧ hold ((t.near - t.near / 8 : Nat) : Int) t.contact) ∧
    (x.level = .contact → up t.forced .forced ∧ down t.contact .near ∧
      hold ((t.contact - t.contact / 8 : Nat) : Int) t.forced) ∧
    (x.level = .forced → down t.forced .contact ∧
      (((t.forced - t.forced / 8 : Nat) : Int) ≤ d → y.level = .forced ∧ y.rising = 0 ∧ y.falling = 0)) ∧
    (y.haltStart = if x.level = .quiet ∧ y.level ≠ .quiet then some now
      else if x.level ≠ .quiet ∧ y.level = .quiet then none else x.haltStart))

/-- A TAMPER_SCAN that is due (one interval after the scan before it, the model's choice, log 24), in settling: the first
takes the raw counts, later ones are filtered; the eighth sets every baseline, makes the unit RUNNING and the start-up phase
READY, and sets the settling count, which is 0 outside SETTLING, to 0 (the model's deduction, log 18). In RUNNING the four
stages are carried out, and each channel whose level has changed is checked, in rising order (the model's choice, log 31).
HALT_TIMEOUT reseeds its channel, CONTEXT_SETTLING_EXPIRY puts IDLE in force with a check of every channel, and
LOITER_TIMEOUT opens SLOT_PROBE with its mark. The arm check: a level that reaches its arm level in the context in force
raises the channel's incident, and one that does not ends the condition it raised. The loiter timer runs while channel 1 is
at CONTACT or FORCED with IDLE in force and the unit RUNNING; the end of that ends SLOT_PROBE. The context: SERVICE with the
window open, else IN_USE with the hook off or the line owned, else IDLE; a change to IDLE comes into force 5 s later, a
change to another at once with a check of every channel, also where the context in force stays the same (the model's
deduction, log 24). RESEED_TAMPER while RUNNING reseeds the channels named. -/
def Obligations.TamperTimers : Prop :=
  (∀ s : State, s.start.rstHeld = false →
    (∀ (raw : List (BitVec 16)) (l : Nat), s.tamper.lastScan = some l →
      let now := max s.now (l + s.req.cfg.scanInterval)
      let r (i : Nat) : Nat := (raw.getD i 0).toNat
      let k := s.req.cfg.filterShift
      let filt (i f : Nat) : Nat := if s.tamper.settleCount = 0 then r i else approach k (r i) f
      let c (i : Fin 6) : Channel := { s.tamper.ch.get i with raw := r (i.val + 1), f := filt (i.val + 1) (s.tamper.ch.get i).f }
      let quiet (x : Channel) : Channel :=
        { x with fc := x.f, b := x.f, d := 0, level := .quiet, rising := 0, falling := 0, haltStart := none }
      (s.tamper.settling = .settling → s.tamper.settleCount < 7 → exec (.tamperScan raw) s = .next (refreshPins (settle { s with
        now := now
        tamper := { s.tamper with
          lastScan := some now, settleCount := s.tamper.settleCount + 1
          ref := { s.tamper.ref with raw := r 0, f := filt 0 s.tamper.ref.f }
          ch := ⟨c 0, c 1, c 2, c 3, c 4, c 5⟩ } }))) ∧
      (s.tamper.settling = .settling → s.tamper.settleCount = 7 →
        exec (.tamperScan raw) s = .next (refreshPins (settle (enterReady { s with
          now := now
          tamper := { s.tamper with
            lastScan := some now, settleCount := 0, settling := .running, loiter := .stopped, inForce := s.tamper.context
            settleEnd := none
            ref := { s.tamper.ref with raw := r 0, f := filt 0 s.tamper.ref.f, b := filt 0 s.tamper.ref.f }
            ch := ⟨quiet (c 0), quiet (c 1), quiet (c 2), quiet (c 3), quiet (c 4), quiet (c 5)⟩ } })))) ∧
      (s.tamper.settling = .running → exec (.tamperScan raw) s = .next (refreshPins (settle (runningScan raw
        { s with now := now, tamper := { s.tamper with lastScan := some now } }))))) ∧
    (∀ (i : Fin 6) (t : Nat), (s.tamper.ch.get i).haltStart = some t →
      exec (.haltTimeout i) s = .next (refreshPins (settle (loiterRefresh (armCheck i { s with
        now := max s.now (t + 1000 * s.req.cfg.haltLimit)
        tamper := { s.tamper with ch := s.tamper.ch.put i { s.tamper.ch.get i with
          b := (s.tamper.ch.get i).fc, d := 0, level := .quiet, rising := 0, falling := 0, haltStart := none
          reseeds := bump 255 (s.tamper.ch.get i).reseeds } } }))))) ∧
    (∀ d, s.tamper.settleEnd = some d → exec .contextSettlingExpiry s = .next (refreshPins (settle (loiterRefresh (checkAll
      { s with now := max s.now d, tamper := { s.tamper with inForce := .idle, settleEnd := none } }))))) ∧
    (∀ t, s.tamper.loiter = .running t → exec .loiterTimeout s = .next (refreshPins (settle (openIncident .slotProbe
      { s with
        now := max s.now (t + 1000 * s.req.cfg.loiter), tamper := { s.tamper with loiter := .reached, probe := true } }))))) ∧
  (∀ (raw : List (BitVec 16)) (s : State),
    let cfg := s.req.cfg
    let r (i : Nat) : Nat := (raw.getD i 0).toNat
    let f0 := approach cfg.filterShift (r 0) s.tamper.ref.f
    let c (i : Fin 6) : Channel :=
      let x := s.tamper.ch.get i
      let f := approach cfg.filterShift (r (i.val + 1)) x.f
      let fc := compensate cfg.weight f ((f0 : Int) - s.tamper.ref.b)
      let b := if x.level = .quiet then approach cfg.baseShift fc x.b else x.b
      levelStep cfg.debounce s.now (cfg.thresholds.get i) ((fc : Int) - b) { x with raw := r (i.val + 1), f := f, fc := fc, b := b }
    let check (i : Fin 6) (y : State) : State := if (c i).level = (s.tamper.ch.get i).level then y else armCheck i y
    runningScan raw s = loiterRefresh (check 5 (check 4 (check 3 (check 2 (check 1 (check 0 { s with tamper := { s.tamper with
      ref := { s.tamper.ref with raw := r 0, f := f0, b := approach cfg.refShift f0 s.tamper.ref.b }
      ch := ⟨c 0, c 1, c 2, c 3, c 4, c 5⟩ } }))))))) ∧
  (∀ (i : Fin 6) (s : State),
    let x := s.tamper.ch.get i
    let row := s.req.cfg.arms.get i
    let arm := match s.tamper.inForce with
      | .idle => row.idle
      | .inUse => row.inUse
      | .service => row.service
    let reached : Prop := (arm = .contact ∧ (x.level = .contact ∨ x.level = .forced)) ∨ (arm = .forced ∧ x.level = .forced)
    let marked (v : Bool) : State := { s with tamper := { s.tamper with ch := s.tamper.ch.put i { x with raised := v } } }
    channelKind i = [IncidentKind.slotForced, .vaultPry, .cordPull, .keypadForce, .displayStrike, .housingForce].getD i.val
      .slotForced ∧
    (reached → armCheck i s = openIncident (channelKind i) (marked true)) ∧
    (¬ reached → x.raised = true → armCheck i s = endCondition (channelKind i) (marked false)) ∧
    (¬ reached → x.raised = false → armCheck i s = s)) ∧
  (∀ s : State,
    let near1 := (s.tamper.ch.get 0).level
    let holds : Prop := (near1 = .contact ∨ near1 = .forced) ∧ s.tamper.inForce = .idle ∧ s.tamper.settling = .running
    let off : State := { s with tamper := { s.tamper with loiter := .stopped, probe := false } }
    checkAll s = armCheck 5 (armCheck 4 (armCheck 3 (armCheck 2 (armCheck 1 (armCheck 0 s))))) ∧
    (holds → s.tamper.loiter = .stopped →
      loiterRefresh s = { s with tamper := { s.tamper with loiter := .running s.now } }) ∧
    (holds → s.tamper.loiter ≠ .stopped → loiterRefresh s = s) ∧
    (¬ holds → s.tamper.probe = false → loiterRefresh s = off) ∧
    (¬ holds → s.tamper.probe = true → loiterRefresh s = endCondition .slotProbe off)) ∧
  (∀ s : State,
    let c : Context := if s.vault.windowEnd.isSome = true then .service
      else if s.call.hook = .off ∨ s.line.owner ≠ .none then .inUse else .idle
    (c = s.tamper.context → contextStage s = s) ∧
    (c ≠ s.tamper.context → s.tamper.settling ≠ .running →
      contextStage s = { s with tamper := { s.tamper with context := c, inForce := c, settleEnd := none } }) ∧
    (c ≠ s.tamper.context → s.tamper.settling = .running → c = .idle →
      contextStage s = { s with tamper := { s.tamper with context := c, settleEnd := some (s.now + 5000) } }) ∧
    (c ≠ s.tamper.context → s.tamper.settling = .running → c ≠ .idle →
      contextStage s = loiterRefresh (checkAll
        { s with tamper := { s.tamper with context := c, inForce := c, settleEnd := none } }))) ∧
  (∀ (set_ : Nat) (s : State),
    let named (n : Nat) (f : State → State) (y : State) : State := if set_.testBit n = true then f y else y
    let ch (i : Fin 6) (y : State) : State :=
      let x := y.tamper.ch.get i
      loiterRefresh (armCheck i { y with tamper := { y.tamper with ch := y.tamper.ch.put i { x with
        b := x.fc, d := 0, level := .quiet, rising := 0, falling := 0, haltStart := none, reseeds := bump 255 x.reseeds } } })
    let ref (y : State) : State := { y with tamper := { y.tamper with
      ref := { y.tamper.ref with b := y.tamper.ref.f, reseeds := bump 255 y.tamper.ref.reseeds } } }
    (s.tamper.settling ≠ .running → reseedSet set_ s = s) ∧
    (s.tamper.settling = .running → reseedSet set_ s = named 6 (ch 5) (named 5 (ch 4) (named 4 (ch 3) (named 3 (ch 2)
      (named 2 (ch 1) (named 1 (ch 0) (named 0 ref s))))))))

/-! ### Incidents and reports (08) -/

/-- An open event. A kind of severity 0 is not kept. An empty slot is filled; a slot in use counts the event, is ACTIVE and
OPEN again, and a REPORTED or REPORT_FAILED slot of severity 2 or 3 is UNREPORTED again, a MARKED one renewed. A slot of
severity 2 or 3 that becomes UNREPORTED is a qualifying event: with the dialler in IDLE or RETRY_WAIT a fresh series is to
begin (the mark on which it acts is the model's own, log 8), in any other state the attempt count is 0. SLOT_JAM, SLOT_FORCED
and STRINGING end their condition at once, with 30 s of quiet time. A condition end changes an ACTIVE slot alone. Neither
event changes anything else of the machine. A detail
event adds one to the detail count of a slot in use, up to 255, or a value to its detail money, up to 999,999, and changes
nothing else of the slot, of the others, or of the dialler; without a slot it is dropped, but that the detail of STRINGING
first opens the incident. -/
def Obligations.OpenEventsFillAndMerge : Prop :=
  (∀ (k : IncidentKind) (v : Nat) (s : State),
    let slots (f : Slot → Slot) (x : Slot) : State :=
      { s with inc := { s.inc with slots := s.inc.slots.put k (some (f x)) } }
    (s.inc.slots.get k = none → addDetail k s = s ∧ addDetailMoney k v s = s) ∧
    (∀ x, s.inc.slots.get k = some x →
      addDetail k s = slots (fun y => { y with detailCount := bump 255 y.detailCount }) x ∧
      addDetailMoney k v s = slots (fun y => { y with detailMoney := min 999999 (y.detailMoney + v) }) x) ∧
    (∀ (j : IncidentKind) (y : Option Slot), (s.inc.slots.put k y).get j = if j = k then y else s.inc.slots.get j) ∧
    (s.inc.slots.get .stringing = none → stringDetail s = addDetail .stringing (openIncident .stringing s)) ∧
    (s.inc.slots.get .stringing ≠ none → stringDetail s = addDetail .stringing s)) ∧
  ∀ (k : IncidentKind) (s : State),
    let sev := s.req.cfg.severity.get k
    let brief := k = .slotJam ∨ k = .slotForced ∨ k = .stringing
    let told : Dialler := if s.dial.st = .idle ∨ s.dial.st = .retryWait then { s.dial with react := true }
      else { s.dial with attempts := 0 }
    let put (x : Slot) : Incidents := { s.inc with slots := s.inc.slots.put k (some x) }
    (sev = 0 → openIncident k s = s) ∧
    (sev ≠ 0 → s.inc.slots.get k = none → openIncident k s = { s with
      inc := { put ⟨s.inc.nextSeq, sev, s.stamp, 1, decide (¬ brief), if brief then some (s.now + 30000) else none, false,
        if sev = 1 then .notRequired else .unreported, false, 0, 0⟩ with nextSeq := (s.inc.nextSeq + 1) % 65536 }
      dial := if 2 ≤ sev then told else s.dial }) ∧
    (∀ x, sev ≠ 0 → s.inc.slots.get k = some x → openIncident k s = { s with
      inc := put { x with
        triggers := bump 255 x.triggers, active := decide (¬ brief)
        quietEnd := if brief then some (s.now + 30000) else none
        closedPending := false
        report := if 2 ≤ x.severity ∧ (x.report = .reported ∨ x.report = .reportFailed) then .unreported else x.report
        renewed := x.renewed || (decide (2 ≤ x.severity) && decide (x.report = .marked)) }
      dial := if 2 ≤ x.severity ∧ (x.report = .reported ∨ x.report = .reportFailed) then told else s.dial }) ∧
    (s.inc.slots.get k = none → endCondition k s = s) ∧
    (∀ x, s.inc.slots.get k = some x → x.active = false → endCondition k s = s) ∧
    (∀ x, s.inc.slots.get k = some x → x.active = true → endCondition k s = { s with
      inc := put { x with active := false, quietEnd := some (s.now + 30000) } })

/-- QUIET_TIMEOUT makes an ended slot CLOSED_PENDING; a slot that leaves has its record queued, laid out as the log has it.
RETRY_TIMEOUT begins the next attempt, a qualifying event or a test a fresh series: with a report number the line is
requested, and a call in COLLECT with the hold flag gives it up; without one the attempt fails. READY_TONE_TIMEOUT and
KISSOFF_TIMEOUT fail it. ACKTONE_DETECTION in AWAIT_ANSWER is the ready tone: the message is loaded: station, code 10, for
each UNREPORTED slot of severity 3 and then 2, by kind, its kind code, severity and count up to 9, or four zeros for none,
and code 11; those slots are MARKED. In ANSWERED, awaited, it is the kiss-off: MARKED slots are REPORTED, renewed ones
UNREPORTED again; the delivery is counted, with the reason of an earlier failure left as it is (the model's deduction, log
18), the line released, and a report still due is begun. It is not watched with another owner or line state. A failed
attempt: the handshake timer stops, the request is withdrawn or the line released, which a waiting caller then gets, MARKED
slots are UNREPORTED again, the reason is shown; the first three failures of a series wait 30 s, 120 s and 600 s; at the
fourth every UNREPORTED slot is REPORT_FAILED, the test mark is cleared, and the dialler is IDLE. -/
def Obligations.ReportAttempts : Prop :=
  let beginning (y : State) : State :=
    let z : State := { y with dial := { y.dial with
      retryEnd := none, number := y.req.cfg.reportNumber, station := y.req.cfg.stationId } }
    if y.req.cfg.reportNumber = [] then attemptFail .noNumber z
    else
      let g := lineGrant { z with dial := { z.dial with st := .requesting }, line := { y.line with reportReq := true } }
      if g.line.owner = .call ∧ g.line.reportReq = true ∧ g.call.st = .collect ∧ g.call.holdFlag = true then
        enterClearing .preempted (releaseLine .call { g with line := { g.line with reservation := true } })
      else g
  (∀ (s : State) (d : Nat), s.start.rstHeld = false →
       let t : State := { s with now := max s.now d }
       (∀ (k : IncidentKind) (x : Slot), s.inc.slots.get k = some x → x.active = false → x.quietEnd = some d →
         exec (.quietTimeout k) s = .next (refreshPins (settle { t with inc := { s.inc with
           slots := s.inc.slots.put k (some { x with quietEnd := none, closedPending := true }) } }))) ∧
       (s.dial.st = .retryWait → s.dial.retryEnd = some d →
         exec .retryTimeout s = .next (refreshPins (settle (beginning t)))) ∧
       (s.dial.st = .awaitReady → s.dial.handEnd = some d →
         exec .readyToneTimeout s = .next (refreshPins (settle (attemptFail .noReadyTone t)))) ∧
       (s.dial.st = .awaitKissoff → s.dial.handEnd = some d →
         exec .kissoffTimeout s = .next (refreshPins (settle (attemptFail .noKissoff t)))) ∧
       (s.line.owner = .report → s.line.st = .awaitAnswer →
         let u : State := { s with line := { s.line with st := .answered } }
         (s.dial.st = .awaitReady → exec .acktoneDetection s = .next (refreshPins (settle (buildMessage u)))) ∧
         (s.dial.st ≠ .awaitReady → exec .acktoneDetection s = .next (refreshPins (settle u)))) ∧
       (s.line.owner = .report → s.line.st = .answered →
         (s.dial.st = .awaitKissoff → exec .acktoneDetection s = .next (refreshPins (settle (kissOff s)))) ∧
         (s.dial.st ≠ .awaitKissoff → exec .acktoneDetection s = .next (refreshPins (settle s)))) ∧
       (s.line.owner ≠ .report ∨ (s.line.st ≠ .awaitAnswer ∧ s.line.st ≠ .answered) →
         exec .acktoneDetection s = .next (refreshPins (settle s)))) ∧
  (∀ s : State,
       let due (three : Bool) : List Nat := IncidentKind.list.flatMap fun k => match s.inc.slots.get k with
         | none => []
         | some x =>
           if x.report = .unreported ∧ 2 ≤ x.severity ∧ (x.severity = 3 ↔ three = true) then
             [kindCode k / 10, kindCode k % 10, x.severity, min 9 (x.triggers + x.detailCount)] else []
       let body := due true ++ due false
       buildMessage s = tellSent (loadSender .report .message .tone
         (s.dial.station ++ [10] ++ (if body = [] then [0, 0, 0, 0] else body) ++ [11]) { s with
           dial := { s.dial with st := .message, handEnd := none }
           inc := { s.inc with slots := s.inc.slots.map (Option.map fun x =>
             if x.report = .unreported ∧ 2 ≤ x.severity then { x with report := .marked, renewed := false } else x) } })) ∧
  (∀ s : State,
       let t := releaseLine .report { s with
         dial := { s.dial with
           handEnd := none, testMark := false, outcome := .delivered, delivered := bump 65535 s.dial.delivered, attempts := 0 }
         inc := { s.inc with slots := s.inc.slots.map (Option.map fun x => if x.report = .marked
           then { x with report := if x.renewed = true then .unreported else .reported, renewed := false } else x) } }
       let due : Prop := ∃ k x, t.inc.slots.get k = some x ∧ x.report = .unreported ∧ 2 ≤ x.severity
       (due → kissOff s = beginning t) ∧ (¬ due → kissOff s = { t with dial := { t.dial with st := .idle } })) ∧
  (∀ s : State,
       (s.dial.react = false → reactStage s = s) ∧
       (s.dial.react = true → s.dial.st = .idle ∨ s.dial.st = .retryWait →
         reactStage s = beginning { s with dial := { s.dial with react := false, attempts := 0 } }) ∧
       freshSeries s = beginning { s with dial := { s.dial with attempts := 0 } }) ∧
  (∀ (reason : FailReason) (s : State),
       let g : State := releaseLine .report { s with
         dial := { s.dial with handEnd := none }, line := { s.line with reportReq := false, reservation := false } }
       let shown (y : Dialler) : Dialler := { y with outcome := .failed, reason := reason }
       let changed (f : Slot → Slot) : Incidents := { g.inc with slots := g.inc.slots.map (Option.map f) }
       (s.dial.attempts < 3 → attemptFail reason s = { g with
         inc := changed fun x => if x.report = .marked then { x with report := .unreported, renewed := false } else x
         dial := { shown g.dial with
           st := .retryWait, attempts := s.dial.attempts + 1
           retryEnd := some (s.now + if s.dial.attempts = 0 then 30000 else if s.dial.attempts = 1 then 120000 else 600000) } }) ∧
       (3 ≤ s.dial.attempts → attemptFail reason s = { g with
         inc := changed fun x =>
           if x.report = .marked then { x with report := .reportFailed, renewed := false }
           else if x.report = .unreported then { x with report := .reportFailed } else x
         dial := { shown g.dial with st := .idle, attempts := 0, testMark := false, retryEnd := none } })) ∧
  (∀ (reason : FailReason) (s : State),
       let t := attemptFail reason s
       t.dial.handEnd = none ∧ t.dial.outcome = .failed ∧ t.dial.reason = reason ∧ t.dial.delivered = s.dial.delivered ∧
       t.line.reportReq = false ∧ t.line.reservation = false ∧
       (s.line.owner = .report → t.line.owner = .none ∧ t.line.guardEnd = some (s.now + 1000)) ∧
       (s.line.owner ≠ .report → t.line.owner = s.line.owner ∧ t.line.st = s.line.st) ∧
       (s.dial.attempts < 3 →
         t.dial.st = .retryWait ∧ t.dial.attempts = s.dial.attempts + 1 ∧ t.dial.testMark = s.dial.testMark ∧
         t.dial.retryEnd = some (s.now + if s.dial.attempts = 0 then 30000 else if s.dial.attempts = 1 then 120000 else 600000) ∧
         ∀ k x, s.inc.slots.get k = some x → t.inc.slots.get k =
           some (if x.report = .marked then { x with report := .unreported, renewed := false } else x)) ∧
       (3 ≤ s.dial.attempts →
         t.dial.st = .idle ∧ t.dial.attempts = 0 ∧ t.dial.testMark = false ∧ t.dial.retryEnd = none ∧
         ∀ k x, s.inc.slots.get k = some x → ∃ y, t.inc.slots.get k = some y ∧
           y.report = (if x.report = .marked ∨ x.report = .unreported then .reportFailed else x.report))) ∧
  (∀ (k : IncidentKind) (x : Slot) (s : State),
       let body := incidentBody s.inc.nextLog k x s.stamp
       let at_ (i n : Nat) : List Byte := (body.drop i).take n
       queueIncident k x s = { s with
         inc := { s.inc with slots := s.inc.slots.put k none, nextLog := (s.inc.nextLog + 1) % 65536 }
         writer := { s.writer with queue := s.writer.queue ++ [.incident s.inc.nextLog body] } } ∧
       body.length = 30 ∧ at_ 0x00 2 = w16 s.inc.nextLog ∧ at_ 0x02 2 = w16 x.seq ∧ at_ 0x04 1 = [b8 (kindCode k)] ∧
       at_ 0x05 1 = [b8 x.severity] ∧ at_ 0x06 1 = [b8 x.report.code] ∧
       at_ 0x07 1 = [b8 ((if x.opened.isSet = true then 1 else 0) + (if s.stamp.isSet = true then 2 else 0))] ∧
       at_ 0x08 5 = w16 x.opened.day ++ w24 x.opened.sec ∧ at_ 0x0D 5 = w16 s.stamp.day ++ w24 s.stamp.sec ∧
       at_ 0x12 1 = [b8 x.triggers] ∧ at_ 0x13 1 = [b8 x.detailCount] ∧ at_ 0x14 3 = money6 x.detailMoney)

/-! ### Resets, power fail and clock (10) -/

/-- A reset puts every block, RST_RESET all but the station clock, into its state after reset, with the model's reset values
(log 4, log 6). The memory keeps its bytes but for an own write that was being clocked out, of which it may have stored any
number of the first bytes (free, log 7), and of a write that awaits its confirmation all (the model's deduction, log 33); the
door and box inputs keep their levels. POWER_ON_RESET with the pin not held ends at once (the model's deduction, log 20), and
else leaves the pin held and lasts as RST_RESET does (the model's choice, log 4); RST_RESET lasts until END_OF_RESET, which
starts the 16 ms of RESETTING and the line's guard of 1,000 ms. SCANNING: the model queues a step's reads one at a time (its
deduction, log 15). Pages A to D are read; A and B valid load counts, baseline and epoch, and a collection that page C shows
completed and page B does not is finished, page C again as read, the sum of the baseline's value stopping at 99,999,999; else
ACCOUNT_FAULT, the epoch and the sequence from what is valid. Until step 3 ends the bank named is only being validated, with
the activation state NONE. The 128 ring pages are read; each fresh OPEN record is rewritten INTERRUPTED, its dial time and
length as read, and the counters follow from the highest accepted sequence, of several that none is newer than the first
slot's, and the fresh records, with RING_FULL from 124 (what is written as read, the limit of that sum, the state while the
bank is validated, and, in a circle of sequences, the staleness of records newer than the one picked: the model's choices,
log 15, log 31). The 32 log pages are read, two records each, and the purge begins, its first pulse at once; with PFW
asserted it waits (the model's deduction, log 25). READY takes hook and door as they stand. Where ACCOUNT_FAULT is raised, a
held VAULT_UPDATE is kept and a held collection discarded (the model's deduction, log 23). -/
def Obligations.ResetsAndStartUp : Prop :=
  (∀ s : State,
    let blocks (mem : List Host.Cell) (draws : Nat) : State := { State.reset with
      now := s.now, start := Startup.zero, line := Line.zero
      vault := { Vault.zero with doorOpen := s.vault.doorOpen, boxPresent := s.vault.boxPresent }
      link := { Link.zero with mem := mem }, draws := draws, pending := s.pending }
    let powered (mem : List Host.Cell) (draws : Nat) : State := { blocks mem draws with
      start := { Startup.zero with resettingEnd := some (s.now + 16) }
      line := { Line.zero with guardEnd := some (s.now + 1000) } }
    let held (mem : List Host.Cell) (draws : Nat) : State := { blocks mem draws with
      start := { Startup.zero with rstHeld := true } }
    let pinned (mem : List Host.Cell) (draws : Nat) : State := { held mem draws with clock := s.clock, pfw := s.pfw }
    ((∀ a d, s.writer.phase ≠ .writing a d) →
      (s.start.rstHeld = false → exec .powerOnReset s = .next (powered s.link.mem s.draws)) ∧
      (s.start.rstHeld = true → exec .powerOnReset s = .next (held s.link.mem s.draws)) ∧
      exec .rstReset s = .next (pinned s.link.mem s.draws)) ∧
    (∀ a d, s.writer.phase = .writing a d → ∃ n, n ≤ d.length ∧
      (s.start.rstHeld = false →
        exec .powerOnReset s = .next (powered (memStore s.link.mem a (d.take n)) (s.draws + 1))) ∧
      (s.start.rstHeld = true →
        exec .powerOnReset s = .next (held (memStore s.link.mem a (d.take n)) (s.draws + 1))) ∧
      exec .rstReset s = .next (pinned (memStore s.link.mem a (d.take n)) (s.draws + 1))) ∧
    (s.start.rstHeld = true → exec .endOfReset s = .next (refreshPins { s with
      start := { s.start with rstHeld := false, resettingEnd := some (s.now + 16) }
      line := { s.line with guardEnd := some (s.now + 1000) } })) ∧
    (∀ d, s.start.rstHeld = false → s.start.phase = .resetting → s.start.resettingEnd = some d →
      exec .resettingEnd s = .next (refreshPins (settle { s with
        now := max s.now d
        start := { s.start with phase := .scanning, step := 1, resettingEnd := none }
        req := { s.req with reading := some [], wantRead := some 3 } })))) ∧
  (∀ s : State,
    let valid (p : Option (List Byte)) (off : Nat) (l : List Byte) : Prop :=
      p = some l ∧ (l.take 62 |>.map (·.toNat)).sum % 65536 = be2 l 62 ∧ ∀ i < 8, codeAt l off i ≤ 9
    let counts (l : List Byte) (o v : Nat) : Counts :=
      ⟨⟨be4 l o, be4 l (o + 4), be4 l (o + 8), be4 l (o + 12), be4 l (o + 16), be4 l (o + 20), be4 l (o + 24),
        be4 l (o + 28)⟩, be4 l (o + 32), decimalVal l v 8⟩
    let next (k : Bank) (y : State) : State :=
      let z := recomputeFill y
      { z with
        start := { z.start with step := 3 }
        tariff := { z.tariff with check := some ⟨k, none, [], 0⟩, wantRead := some (if k = .a then 10 else 42) } }
    (∀ page bytes, let t : State := { s with start := { s.start with vaultPages := s.start.vaultPages ++ [bytes] } }
      (page < 9 → vaultPage page bytes s = { t with start := { t.start with want := some (.vault, page + 1) } }) ∧
      (9 ≤ page → vaultPage page bytes s = finishVault t)) ∧
    (∀ (a b c d : Option (List Byte)) (k : Bank), s.start.vaultPages = [a, b, c, d] →
      (k = .b ↔ ∃ l, d = some l ∧ (l.take 62 |>.map (·.toNat)).sum % 65536 = be2 l 62 ∧ byteAt l 0 = 1) →
      (∀ pa pb, valid a 0x28 pa → valid b 0x24 pb →
        let v : Vault := { s.vault with
          life := counts pa 0 0x28, unconfirmed := be4 pa 0x24, sat := decide (byteAt pa 0x2E % 2 = 1)
          epoch := be2 pa 0x2C, base := counts pb 0 0x24 }
        (∀ pc, valid c 0x2F pc →
          (byteAt pc 2 = 1 ∧ newer (be2 pc 0) (be2 pb 0x2A) = true →
            let w : Vault := { v with collSeq := be2 pc 0, base := v.base.add (counts pc 0x0B 0x2F) }
            finishVault s = next k (handOver (.collection (pc.take 62) (pageBBody ⟨w.base, w.epoch, w.collSeq⟩))
              { s with vault := w })) ∧
          (byteAt pc 2 ≠ 1 ∨ newer (be2 pc 0) (be2 pb 0x2A) = false →
            finishVault s = next k { s with vault := { v with collSeq := be2 pc 0 } })) ∧
        ((∀ pc, ¬ valid c 0x2F pc) → finishVault s = next k { s with vault := { v with collSeq := be2 pb 0x2A } })) ∧
      ((∀ l, ¬ valid a 0x28 l) ∨ (∀ l, ¬ valid b 0x24 l) → ∃ epoch sequence,
        finishVault s = next k (raiseAccountFault { s with vault := { s.vault with epoch := epoch, collSeq := sequence } }) ∧
        (∀ l, valid a 0x28 l → epoch = be2 l 0x2C) ∧
        (∀ l, (∀ x, ¬ valid a 0x28 x) → valid b 0x24 l → epoch = be2 l 0x28) ∧
        ((∀ x, ¬ valid a 0x28 x) → (∀ x, ¬ valid b 0x24 x) → epoch = 0) ∧
        (∀ l, valid c 0x2F l → sequence = be2 l 0) ∧
        (∀ l, (∀ x, ¬ valid c 0x2F x) → valid b 0x24 l → sequence = be2 l 0x2A) ∧
        ((∀ x, ¬ valid c 0x2F x) → (∀ x, ¬ valid b 0x24 x) → sequence = 0)))) ∧
  (∀ (l pre post : List Nat) (h : Nat), l = pre ++ h :: post → (∀ a ∈ l, newer a h = false) →
    (∀ b ∈ pre, ∃ a ∈ l, newer a b = true) → highest l = h) ∧
  (∀ s : State,
    let body (p : List Byte) : List Byte :=
      let code (i : Nat) : Nat := if i < byteAt p 9 then codeAt p 0x0A i else 15
      p.take 2 ++ [3, 11] ++ (p.drop 4).take 6 ++ (List.range 10).map (fun i => b8 (16 * code (2 * i) + code (2 * i + 1)))
        ++ (p.drop 0x14).take 37 ++ List.replicate 5 0
    (∀ page bytes,
      let accepted (p : List Byte) : Prop := bytes = some p ∧ (p.take 62 |>.map (·.toNat)).sum % 65536 = be2 p 62 ∧
        1 ≤ byteAt p 2 ∧ byteAt p 2 ≤ 3 ∧ be2 p 0 % 128 = page - 74
      let go (y : State) : State :=
        if page < 201 then { y with start := { y.start with want := some (.ring, page + 1) } } else rewriteRing y
      (∀ p, accepted p → ringPage page bytes s = go { s with start := { s.start with
        ring := s.start.ring ++ [(be2 p 0, p)] } }) ∧
      ((∀ p, ¬ accepted p) → ringPage page bytes s = go s)) ∧
    (∀ (q : List (Nat × List Byte)), (∀ x ∈ s.start.ring, x.2.length = 64) →
      q = s.start.ring.filter (fun x =>
        decide (gap16 (highest (s.start.ring.map (·.1))) x.1 ≤ 127) && (byteAt x.2 2 == 1)) →
      let t : State := { s with start := { s.start with rewrites := q.length } }
      (q = [] → rewriteRing s = finishRing t) ∧
      (q ≠ [] → rewriteRing s = q.foldl (fun y x => handRecord ⟨x.1, .rewrite, body x.2⟩ y) t)) ∧
    (let t : State := { s with start := { s.start with rewrites := s.start.rewrites - 1 } }
     (s.start.rewrites = 1 ∧ s.start.phase = .scanning → rewriteLeft s = finishRing t) ∧
     (¬ (s.start.rewrites = 1 ∧ s.start.phase = .scanning) → rewriteLeft s = t)) ∧
    (∀ h n, s.start.ring ≠ [] → s.start.ring.length ≤ 128 → h = highest (s.start.ring.map (·.1)) → h < 65536 →
      n = (s.start.ring.filter fun x => decide (gap16 h x.1 ≤ 127)).length →
      finishRing s = { s with
        start := { s.start with ring := [], step := 5, want := some (.log, 202) }
        call := { s.call with
          nextSeq := (h + 1) % 65536, lastFinal := h, ackedSeq := (h + (65536 - n)) % 65536
          reasons := if 124 ≤ n then s.call.reasons.put .ringFull true else s.call.reasons
          almostFull := decide (128 - s.req.cfg.ringMargin ≤ n) } }) ∧
    (s.start.ring = [] → finishRing s = { s with
      start := { s.start with ring := [], step := 5, want := some (.log, 202) }
      call := { s.call with
        nextSeq := 0, lastFinal := 65535, ackedSeq := 65535, almostFull := decide (128 ≤ s.req.cfg.ringMargin) } })) ∧
  (∀ s : State,
    (∀ page bytes,
      let accepted (k : Nat) (x : List Byte) : Prop := (x.take 30 |>.map (·.toNat)).sum % 65536 = be2 x 30 ∧
        1 ≤ byteAt x 4 ∧ byteAt x 4 ≤ 16 ∧ be2 x 0 % 64 = 2 * (page - 202) + k
      let go (l : List Nat) : State :=
        let t : State := { s with start := { s.start with log := s.start.log ++ l } }
        if page < 233 then { t with start := { t.start with want := some (.log, page + 1) } } else finishLog t
      (bytes = none → logPage page bytes s = go []) ∧
      (∀ p, bytes = some p →
        (accepted 0 (p.take 32) → accepted 1 (p.drop 32) → logPage page bytes s = go [be2 p 0, be2 p 32]) ∧
        (accepted 0 (p.take 32) → ¬ accepted 1 (p.drop 32) → logPage page bytes s = go [be2 p 0]) ∧
        (¬ accepted 0 (p.take 32) → accepted 1 (p.drop 32) → logPage page bytes s = go [be2 p 32]) ∧
        (¬ accepted 0 (p.take 32) → ¬ accepted 1 (p.drop 32) → logPage page bytes s = go []))) ∧
    (let purge (i : Incidents) : State :=
       let t : State := { s with inc := i, start := { s.start with log := [], phase := .purging, step := 0 } }
       if s.pfw = true then { t with coin := { t.coin with purgeNext := some s.now } }
       else { t with
         pins := { t.pins with flapC := false, flapR := true }
         coin := { t.coin with
           purgeStarted := true, purgeNext := none, purgePulseEnd := some (s.now + s.req.cfg.pulse) } }
     (s.start.log = [] → finishLog s = purge { s.inc with nextLog := 0, lastLog := 65535, ackedLog := 65535 }) ∧
     (∀ h, s.start.log ≠ [] → s.start.log.length ≤ 64 → h = highest s.start.log → finishLog s = purge { s.inc with
       nextLog := (h + 1) % 65536, lastLog := h
       ackedLog := (h + (65536 - (s.start.log.filter fun x => decide (gap16 h x ≤ 63)).length)) % 65536 })) ∧
    (let t : State := { s with start := { s.start with phase := .ready, step := 0 } }
     let u : State := if s.call.hook = .off
       then { t with call := { t.call with st := .parked, waiting := false }, num := { t.num with keys := [] } } else t
     enterReady s = lineGrant (if s.vault.doorOpen = true
       then openIncident .vaultOpen { u with vault := { u.vault with session := .unauthorised } } else u))) ∧
  (∀ (c b : List Byte) (s : State),
    (itemsOf .vault s.writer.queue < 2 → handOver (.collection c b) s =
      { s with writer := { s.writer with queue := s.writer.queue ++ [.collection c b] } }) ∧
    raiseAccountFault s = openIncident .accountFault { s with
      call := { s.call with reasons := { s.call.reasons with accountFault := true } }
      vault := { s.vault with held := s.vault.held.filter fun h => decide (h = .update) } })

/-- PFW_ASSERT notes the assertion, and during a charged call with a record hands over a checkpoint with the end cause
POWER_FAIL and the figures as they stand: O as shortfall, C - O as consumed, B + E as held. PFW_CLEAR notes the clearing, and
CLOCK_SECOND is taken, also while the RST pin is held (the model's deduction, log 20); a purge pulse that waited follows D
later. CLOCK_SECOND adds a second to a clock that is set; after 86,399 the seconds are 0 and the day number, 16-bit, is one
more. -/
def Obligations.PowerFailAndClock : Prop :=
  ∀ s : State,
    (s.start.rstHeld = false → s.pfw = false →
      let t : State := { s with pfw := true }
      let a := s.acct
      (∀ q, s.call.st = .connected ∨ s.call.st = .grace → s.call.seq = some q → exec .pfwAssert s = .next (refreshPins
        (handRecord ⟨q, .checkpoint, callRecordBody q .checkpoint .powerFail s.call s.rate.ctx (durationNow s)
          ⟨a.carryIn, a.inserted, a.c, a.o, a.c - a.o, 0, a.refunded, satAdd 999999 a.b a.e, 0, a.units, a.sat⟩⟩ t))) ∧
      ((s.call.st ≠ .connected ∧ s.call.st ≠ .grace) ∨ s.call.seq = none → exec .pfwAssert s = .next (refreshPins t))) ∧
    (s.pfw = true → exec .pfwAssert s = .next (refreshPins s)) ∧
    (s.pfw = true → exec .pfwClear s = .next (refreshPins { s with
      pfw := false
      coin := { s.coin with purgeNext :=
        if s.coin.purgeNext.isSome = true then some (s.now + s.req.cfg.deadTime) else s.coin.purgeNext } })) ∧
    (∀ due, s.clock.isSet = true → s.clock.nextSecond = some due → exec .clockSecond s = .next (refreshPins { s with
      now := max s.now due
      clock := ⟨if s.clock.sec = 86399 then (s.clock.day + 1) % 65536 else s.clock.day,
        if s.clock.sec = 86399 then 0 else s.clock.sec + 1, true, some (due + 1000)⟩ }))

/-! ### Requests (10) -/

/-- Requests taken by an IDLE handler in READY, each answered with its result. SET_CLOCK with at most 86,399 seconds sets
the clock; OPEN_SERVICE with 1 to 60 minutes sets the window's expiry, CLOSE_SERVICE closes an open window, and opens
VAULT_OVERTIME if the session is AUTHORISED; TEST_REPORT sets the test mark and, with the dialler IDLE, begins a series;
RESEED_TAMPER of a set without bit 7 reseeds the channels named; CLEAR_BLOCK in SERVICE context clears a clearable reason.
Each is refused outside those bounds with BAD_PARAM, CLEAR_BLOCK outside SERVICE with REFUSED_STATE, and in a start-up phase
every request but SET_CLOCK with REFUSED_STATE. The rows hand their requests over directly (the model's choice, log 12); the
image that a host has written is latched and carried out alike, and a code outside 1 to 10 is answered BAD_CODE. An
OPEN_SERVICE in a session that VAULT_OVERTIME was opened for ends that condition. What a CLEAR_BLOCK clears. SLOT_JAM present: the reason and its incident's condition end. CHUTE_BLOCKED or FLAP_FAULT present: the
same, and when neither remains every HELD coin that has a release due is given it: a COMMITTED coin its collect, a HELD_OVER
coin its return after CHUTE_BLOCKED and a collect after FLAP_FAULT. ACCOUNT_FAULT present: an epoch starts, with its record,
its VAULT_UPDATE, which merges with one that waits or is held (the model's choice, log 31; the held update: log 23), and the
indicator if that is unwritten. A reason that is absent changes nothing. -/
def Obligations.RequestsAndReasons : Prop :=
  (∀ (tag : Byte) (s : State), s.start.rstHeld = false → s.start.phase ≠ .resetting → s.req.st = .idle →
       let taken (code : Nat) (params : List Byte) : State :=
         { s with req := { s.req with st := .working, latched := requestImage code tag params } }
       let answer (code result : Nat) (y : State) : Host.Outcome State Fault Refusal :=
         .next (refreshPins (settle (handResponse (responseBody code tag.toNat result [])
           { y with req := { y.req with lastCode := code, lastTag := tag.toNat, lastResult := result } })))
       let answered (y : State) : Host.Outcome State Fault Refusal := .next (refreshPins (settle (respond .ok [] y)))
       (∀ (res : Result) (detail : List Byte) (y : State), respond res detail y =
         handResponse (responseBody (byteAt y.req.latched 0) (byteAt y.req.latched 1) res.code detail) { y with req := { y.req with
           lastCode := byteAt y.req.latched 0, lastTag := byteAt y.req.latched 1, lastResult := res.code } }) ∧
       (∀ (day : BitVec 16) (sec : BitVec 24),
         let t := taken 1 (w16 day.toNat ++ w24 sec.toNat)
         (sec.toNat ≤ 86399 → exec (.setClock tag day sec) s =
           answer 1 0 { t with clock := ⟨day.toNat, sec.toNat, true, some (s.now + 1000)⟩ }) ∧
         (86399 < sec.toNat → exec (.setClock tag day sec) s = answer 1 3 t)) ∧
       (s.start.phase ≠ .ready → ∀ (b : Byte) (v : BitVec 16),
         exec (.openService tag b) s = answer 2 4 (taken 2 [b]) ∧ exec (.closeService tag) s = answer 3 4 (taken 3 []) ∧
         exec (.activateTariff tag b v) s = answer 4 4 (taken 4 (b :: w16 v.toNat)) ∧
         exec (.reloadConfig tag) s = answer 5 4 (taken 5 []) ∧ exec (.ackCalls tag v) s = answer 6 4 (taken 6 (w16 v.toNat)) ∧
         exec (.ackIncidents tag v) s = answer 7 4 (taken 7 (w16 v.toNat)) ∧ exec (.testReport tag) s = answer 8 4 (taken 8 []) ∧
         exec (.clearBlock tag b) s = answer 9 4 (taken 9 [b]) ∧ exec (.reseedTamper tag b) s = answer 10 4 (taken 10 [b])) ∧
       (s.start.phase = .ready →
         (∀ m : Byte,
           let t := taken 2 [m]
           (1 ≤ m.toNat → m.toNat ≤ 60 → s.vault.session ≠ .authorised → exec (.openService tag m) s =
             answer 2 0 { t with vault := { s.vault with windowEnd := some (s.now + 60000 * m.toNat) } }) ∧
           (1 ≤ m.toNat → m.toNat ≤ 60 → s.vault.session = .authorised → exec (.openService tag m) s =
             answer 2 0 (endOvertime { t with vault := { s.vault with windowEnd := some (s.now + 60000 * m.toNat) } })) ∧
           (m.toNat = 0 ∨ 60 < m.toNat → exec (.openService tag m) s = answer 2 3 t)) ∧
         (s.vault.windowEnd = none → exec (.closeService tag) s = answer 3 0 (taken 3 [])) ∧
         (s.vault.windowEnd.isSome = true → s.vault.session ≠ .authorised → exec (.closeService tag) s =
           answer 3 0 { taken 3 [] with vault := { s.vault with windowEnd := none } }) ∧
         (s.vault.windowEnd.isSome = true → s.vault.session = .authorised → exec (.closeService tag) s =
           answer 3 0 (openIncident .vaultOvertime
             { taken 3 [] with vault := { s.vault with windowEnd := none, overtime := true } })) ∧
         (s.dial.testMark = false → s.dial.st = .idle → exec (.testReport tag) s =
           answered (freshSeries { taken 8 [] with dial := { s.dial with testMark := true } })) ∧
         (s.dial.testMark = false → s.dial.st ≠ .idle → exec (.testReport tag) s =
           answer 8 0 { taken 8 [] with dial := { s.dial with testMark := true } }) ∧
         (s.dial.testMark = true → exec (.testReport tag) s = answer 8 0 (taken 8 [])) ∧
         (∀ c : Byte, c.toNat < 128 → exec (.reseedTamper tag c) s = answered (reseedSet c.toNat (taken 10 [c]))) ∧
         (∀ c : Byte, 128 ≤ c.toNat → exec (.reseedTamper tag c) s = answer 10 3 (taken 10 [c])) ∧
         (∀ r : Byte,
           (r.toNat ≠ 0 → r.toNat ≠ 1 → r.toNat ≠ 2 → r.toNat ≠ 6 → exec (.clearBlock tag r) s = answer 9 3 (taken 9 [r])) ∧
           (r.toNat = 0 ∨ r.toNat = 1 ∨ r.toNat = 2 ∨ r.toNat = 6 →
             (s.tamper.context ≠ .service → exec (.clearBlock tag r) s = answer 9 4 (taken 9 [r])) ∧
             (s.tamper.context = .service → exec (.clearBlock tag r) s = answered (clearReason r.toNat (taken 9 [r]))))))) ∧
  (∀ (image : List Byte) (s : State),
       let t : State := { s with req := { s.req with st := .working, latched := image } }
       let c := byteAt image 0
       let ok (y : State) : Prop := takeRequest image s = respond .ok [] y
       (c = 0 ∨ 10 < c → takeRequest image s = respond .badCode [] t) ∧
       (2 ≤ c → c ≤ 10 → s.start.phase ≠ .ready → takeRequest image s = respond .refusedState [] t) ∧
       (c = 1 →
         let sec := byteAt image 4 * 65536 + byteAt image 5 * 256 + byteAt image 6
         (sec ≤ 86399 → ok { t with clock := ⟨byteAt image 2 * 256 + byteAt image 3, sec, true, some (s.now + 1000)⟩ }) ∧
         (86399 < sec → takeRequest image s = respond .badParam [] t)) ∧
       (s.start.phase = .ready →
         let m := byteAt image 2
         let window (e : Option Nat) : State := { t with vault := { s.vault with windowEnd := e } }
         (c = 2 →
           (1 ≤ m → m ≤ 60 → s.vault.session ≠ .authorised → ok (window (some (s.now + 60000 * m)))) ∧
           (1 ≤ m → m ≤ 60 → s.vault.session = .authorised → ok (endOvertime (window (some (s.now + 60000 * m))))) ∧
           (m = 0 ∨ 60 < m → takeRequest image s = respond .badParam [] t)) ∧
         (c = 3 →
           (s.vault.windowEnd = none → ok t) ∧
           (s.vault.windowEnd.isSome = true → s.vault.session ≠ .authorised → ok (window none)) ∧
           (s.vault.windowEnd.isSome = true → s.vault.session = .authorised → ok (openIncident .vaultOvertime
             { t with vault := { s.vault with windowEnd := none, overtime := true } }))) ∧
         (c = 8 →
           let marked : State := { t with dial := { s.dial with testMark := true } }
           (s.dial.testMark = true → ok t) ∧ (s.dial.testMark = false → s.dial.st = .idle → ok (freshSeries marked)) ∧
           (s.dial.testMark = false → s.dial.st ≠ .idle → ok marked)) ∧
         (c = 9 →
           (m ≠ 0 → m ≠ 1 → m ≠ 2 → m ≠ 6 → takeRequest image s = respond .badParam [] t) ∧
           (m = 0 ∨ m = 1 ∨ m = 2 ∨ m = 6 →
             (s.tamper.context ≠ .service → takeRequest image s = respond .refusedState [] t) ∧
             (s.tamper.context = .service → ok (clearReason m t)))) ∧
         (c = 10 →
           (m < 128 → ok (reseedSet m t)) ∧ (128 ≤ m → takeRequest image s = respond .badParam [] t)))) ∧
  ([Result.ok, .busy, .badCode, .badParam, .refusedState, .invalidBank, .invalidConfig].map (·.code) = List.range 7) ∧
  (∀ (code : Nat) (tag : Byte) (params : List Byte), params.length ≤ 62 →
       requestImage code tag params = b8 code :: tag :: (params ++ List.replicate (62 - params.length) (b8 0))) ∧
  (∀ s : State,
       (s.vault.overtime = false → endOvertime s = s) ∧
       (s.vault.overtime = true →
         endOvertime s = endCondition .vaultOvertime { s with vault := { s.vault with overtime := false } })) ∧
  (∀ s : State,
       (s.call.reasons.slotJam = false → clearReason 0 s = s) ∧
       (s.call.reasons.slotJam = true → clearReason 0 s = endCondition .slotJam
         { s with call := { s.call with reasons := { s.call.reasons with slotJam := false } } }) ∧
       (s.call.reasons.chuteBlocked = false → clearReason 1 s = s) ∧
       (s.call.reasons.flapFault = false → clearReason 2 s = s) ∧
       (s.call.reasons.chuteBlocked = true →
         let t := endCondition .chuteBlocked { s with call := { s.call with reasons := { s.call.reasons with chuteBlocked := false } } }
         (s.call.reasons.flapFault = true → clearReason 1 s = t) ∧
         (s.call.reasons.flapFault = false → clearReason 1 s = { t with coin := { t.coin with escrow := t.coin.escrow.map fun x =>
           { x with st := if x.st = .held ∧ x.standing = .committed then .releasingCollect
                          else if x.st = .held ∧ x.standing = .heldOver then .releasingReturn else x.st } } })) ∧
       (s.call.reasons.flapFault = true →
         let t := endCondition .flapFault { s with call := { s.call with reasons := { s.call.reasons with flapFault := false } } }
         (s.call.reasons.chuteBlocked = true → clearReason 2 s = t) ∧
         (s.call.reasons.chuteBlocked = false → clearReason 2 s = { t with coin := { t.coin with escrow := t.coin.escrow.map fun x =>
           { x with st := if x.st = .held ∧ x.standing ≠ .credit then .releasingCollect else x.st } } })) ∧
       (s.call.reasons.accountFault = false → clearReason 6 s = s) ∧
       (s.call.reasons.accountFault = true →
         let t := endCondition .accountFault { s with call := { s.call with reasons := { s.call.reasons with accountFault := false } } }
         let epoch := (s.vault.epoch + 1) % 65536
         let seq := (s.vault.collSeq + 1) % 65536
         let r : Collection := ⟨seq, .epochStart, epoch, s.stamp, false, false, s.vault.since, 0⟩
         let u := handCollection r ⟨s.vault.base, epoch, seq⟩ (handVaultUpdate { t with vault := { s.vault with
           epoch := epoch, collSeq := seq, sat := false, summary := some ⟨seq, s.vault.since.value, .epochStart⟩ } })
         clearReason 6 s = if s.tariff.unwritten = true
           then handBankSwitch { u with tariff := { u.tariff with unwritten := false } } else u))

/-- ACK_CALLS of sequence q, answered by the call controller. Newer than L: BAD_PARAM, and nothing changes. Else newer than
K_c: OK, and K_c becomes q; with it U_c falls, RING_FULL is cleared below 124, and the almost-full flag is evaluated again.
Else OK, and nothing changes. Sequence a is newer than b when (a - b) modulo 65,536 is from 1 to 32,767. The row hands the
request over directly (the model's choice, log 12); one that the host has written is carried out alike, from its image. -/
def Obligations.AckCallsMovesTheRing : Prop :=
  ∀ (tag : Byte) (q : BitVec 16) (s : State), s.start.rstHeld = false → s.start.phase = .ready → s.req.st = .idle →
    let t : State := { s with req := { s.req with st := .working, latched := requestImage 6 tag (w16 q.toNat) } }
    let answer (result : Nat) (y : State) : Host.Outcome State Fault Refusal :=
      .next (refreshPins (settle (handResponse (responseBody 6 tag.toNat result [])
        { y with req := { y.req with lastCode := 6, lastTag := tag.toNat, lastResult := result } })))
    let newerThan (a b : Nat) : Prop := 1 ≤ ((a : Int) - b) % 65536 ∧ ((a : Int) - b) % 65536 ≤ 32767
    let unacked : Nat := (((s.call.nextSeq : Int) - (q.toNat + 1)) % 65536).toNat
    (newerThan q.toNat s.call.lastFinal → exec (.ackCalls tag q) s = answer 3 t) ∧
    (¬ newerThan q.toNat s.call.lastFinal → newerThan q.toNat s.call.ackedSeq → exec (.ackCalls tag q) s =
      answer 0 { t with call := { s.call with
        ackedSeq := q.toNat
        reasons := { s.call.reasons with ringFull := if unacked < 124 then false else s.call.reasons.ringFull }
        almostFull := decide (128 - s.req.cfg.ringMargin ≤ unacked) } }) ∧
    (¬ newerThan q.toNat s.call.lastFinal → ¬ newerThan q.toNat s.call.ackedSeq →
      exec (.ackCalls tag q) s = answer 0 t) ∧
    (∀ image : List Byte, byteAt image 0 = 6 → be2 image 2 = q.toNat →
      let y : State := { s with req := { s.req with st := .working, latched := image } }
      (newerThan q.toNat s.call.lastFinal → takeRequest image s = respond .badParam [] y) ∧
      (¬ newerThan q.toNat s.call.lastFinal → newerThan q.toNat s.call.ackedSeq →
        takeRequest image s = respond .ok [] { y with call := { s.call with
          ackedSeq := q.toNat
          reasons := { s.call.reasons with ringFull := if unacked < 124 then false else s.call.reasons.ringFull }
          almostFull := decide (128 - s.req.cfg.ringMargin ≤ unacked) } }) ∧
      (¬ newerThan q.toNat s.call.lastFinal → ¬ newerThan q.toNat s.call.ackedSeq →
        takeRequest image s = respond .ok [] y))

/-- ACK_INCIDENTS of log sequence q, answered by the incident unit. Newer than L_i: BAD_PARAM, and nothing changes. Else
newer than K_i: OK, and K_i becomes q; the slots ready to leave are then tested in the stages that follow. Else OK, and
nothing changes. The row hands the request over directly (the model's choice, log 12); one that the host has written is
carried out alike, from its image. -/
def Obligations.AckIncidentsMovesTheLog : Prop :=
  ∀ (tag : Byte) (q : BitVec 16) (s : State), s.start.rstHeld = false → s.start.phase = .ready → s.req.st = .idle →
    let t : State := { s with req := { s.req with st := .working, latched := requestImage 7 tag (w16 q.toNat) } }
    let answer (result : Nat) (y : State) : Host.Outcome State Fault Refusal :=
      .next (refreshPins (releaseHeld (leaveStage 16 (reactions (handResponse (responseBody 7 tag.toNat result [])
        { y with req := { y.req with lastCode := 7, lastTag := tag.toNat, lastResult := result } })))))
    let newerThan (a b : Nat) : Prop := 1 ≤ ((a : Int) - b) % 65536 ∧ ((a : Int) - b) % 65536 ≤ 32767
    (newerThan q.toNat s.inc.lastLog → exec (.ackIncidents tag q) s = answer 3 t) ∧
    (¬ newerThan q.toNat s.inc.lastLog → newerThan q.toNat s.inc.ackedLog →
      exec (.ackIncidents tag q) s = answer 0 { t with inc := { s.inc with ackedLog := q.toNat } }) ∧
    (¬ newerThan q.toNat s.inc.lastLog → ¬ newerThan q.toNat s.inc.ackedLog → exec (.ackIncidents tag q) s = answer 0 t) ∧
    (∀ image : List Byte, byteAt image 0 = 7 → be2 image 2 = q.toNat →
      let y : State := { s with req := { s.req with st := .working, latched := image } }
      (newerThan q.toNat s.inc.lastLog → takeRequest image s = respond .badParam [] y) ∧
      (¬ newerThan q.toNat s.inc.lastLog → newerThan q.toNat s.inc.ackedLog →
        takeRequest image s = respond .ok [] { y with inc := { s.inc with ackedLog := q.toNat } }) ∧
      (¬ newerThan q.toNat s.inc.lastLog → ¬ newerThan q.toNat s.inc.ackedLog → takeRequest image s = respond .ok [] y))

/-- ACTIVATE_TARIFF: BUSY while an activation is under way; BAD_PARAM for a bank code above 1 or the active bank; else the
validation of the other bank begins with its first page. RELOAD_CONFIG: BUSY while a reload is under way, else the reading of
the block begins with page 3. The rows hand their requests over directly (the model's choice, log 12); what the host has
written is carried out alike, from its image. A bank that validates is switched to at once in IDLE and is else pending; one that fails leaves no pending bank; the answer carries SWITCHED or
PENDING with the count and set of the CLAMPED bands, or the failing item. A configuration that validates is answered, and
applied at once in IDLE, else pending; what it does in the blocks, in an order that the model chooses (log 31). The pages as
they come in, of a request and of start-up: a dropped read fails; the header's checks follow the first page of a bank, the
rest the last; the first item that fails is reported. Start-up puts what is valid into force and raises TARIFF_FAULT or
CONFIG_FAULT for the rest; that bank roles are set as step 3 ends, and the version shown for a failed bank, are the model's
deductions (log 15). What the checks of a configuration, of a bank's header and of its rest test; the items they report, in
their order, each with its test, entry by entry (log 26), with their indices (log 13); of a band's byte 0 the mode is the high
half, whatever bits 2 and 3 are (log 31); and every setting of a configuration block. -/
def Obligations.TariffAndConfigRequests : Prop :=
  (∀ (tag : Byte) (s : State), s.start.rstHeld = false → s.start.phase = .ready → s.req.st = .idle →
    let taken (code : Nat) (params : List Byte) : State :=
      { s with req := { s.req with st := .working, latched := requestImage code tag params } }
    let answer (code result : Nat) (y : State) : Host.Outcome State Fault Refusal :=
      .next (refreshPins (settle (handResponse (responseBody code tag.toNat result [])
        { y with req := { y.req with lastCode := code, lastTag := tag.toNat, lastResult := result } })))
    (∀ (b : Byte) (v : BitVec 16),
      let t := taken 4 (b :: w16 v.toNat)
      let other : Bank := if b.toNat = 0 then .a else .b
      (s.tariff.activation ≠ .none → exec (.activateTariff tag b v) s = answer 4 1 t) ∧
      (s.tariff.activation = .none → 1 < b.toNat ∨ other = s.tariff.bank → exec (.activateTariff tag b v) s = answer 4 3 t) ∧
      (s.tariff.activation = .none → b.toNat ≤ 1 → other ≠ s.tariff.bank →
        exec (.activateTariff tag b v) s = .next (refreshPins (settle { t with tariff := { s.tariff with
          activation := .validating, pendBank := other, pendVersion := v.toNat
          check := some ⟨other, some v.toNat, [], 0⟩, wantRead := some (if b.toNat = 0 then 10 else 42) } })))) ∧
    (s.req.reload ≠ .none → exec (.reloadConfig tag) s = answer 5 1 (taken 5 [])) ∧
    (s.req.reload = .none → exec (.reloadConfig tag) s = .next (refreshPins (settle { s with req := { s.req with
      st := .working, latched := requestImage 5 tag [], reload := .reading, reading := some [], wantRead := some 3 } })))) ∧
  (∀ (image : List Byte) (s : State), s.start.phase = .ready →
    let t : State := { s with req := { s.req with st := .working, latched := image } }
    let b := byteAt image 2
    let other : Bank := if b = 0 then .a else .b
    (byteAt image 0 = 4 →
      (s.tariff.activation ≠ .none → takeRequest image s = respond .busy [] t) ∧
      (s.tariff.activation = .none → 1 < b ∨ other = s.tariff.bank → takeRequest image s = respond .badParam [] t) ∧
      (s.tariff.activation = .none → b ≤ 1 → other ≠ s.tariff.bank → takeRequest image s = { t with tariff := { s.tariff with
        activation := .validating, pendBank := other, pendVersion := be2 image 3
        check := some ⟨other, some (be2 image 3), [], 0⟩, wantRead := some (if b = 0 then 10 else 42) } })) ∧
    (byteAt image 0 = 5 →
      (s.req.reload ≠ .none → takeRequest image s = respond .busy [] t) ∧
      (s.req.reload = .none → takeRequest image s = { t with req := { t.req with
        reload := .reading, reading := some [], wantRead := some 3 } }))) ∧
  (∀ (x : Shadow) (s : State),
    let t : State := { s with tariff := { s.tariff with
      activation := .pending, pendShadow := some x, check := none, wantRead := none } }
    let detail (code : Nat) : List Byte := b8 code :: b8 ((x.bands.filter (·.clamped)).length) ::
      w32 ((List.range x.bands.length).map fun i => if (x.bands.map (·.clamped)).getD i false = true then 2 ^ i else 0).sum
    (s.call.st = .idle → activationSucceeds x s = respond .ok (detail 0) (handBankSwitch { t with
      call := { s.call with reasons := { s.call.reasons with tariffFault := false } }
      tariff := { t.tariff with
        bank := s.tariff.pendBank, version := s.tariff.pendVersion, shadow := x, clamped := x.clampCount
        activation := .none, pendBank := .a, pendVersion := 0, pendShadow := none } })) ∧
    (s.call.st ≠ .idle → activationSucceeds x s = respond .ok (detail 1) t)) ∧
  (∀ (f : Finding) (s : State), activationFails f s = respond .invalidBank [b8 f.area, b8 f.index, b8 f.reason]
    { s with tariff := { s.tariff with
      activation := .none, pendBank := .a, pendVersion := 0, pendShadow := none, check := none, wantRead := none } }) ∧
  (∀ (c : Settings) (s : State),
    let inForce (y : State) : State := takeSettings { y with
      req := { y.req with cfg := c, defaults := false, pendCfg := none, reload := .none }
      call := { y.call with reasons := { y.call.reasons with configFault := false } } }
    (s.call.st ≠ .idle → reloadSucceeds c s = respond .ok [b8 1]
      { s with req := { s.req with reload := .pending, pendCfg := some c, reading := none, wantRead := none } }) ∧
    (s.call.st = .idle → reloadSucceeds c s = inForce (respond .ok [b8 0]
      { s with req := { s.req with reload := .pending, pendCfg := some c, reading := none, wantRead := none } })) ∧
    (s.req.reload = .pending → s.req.pendCfg = some c → applyConfig s = inForce s) ∧
    (s.req.reload ≠ .pending → applyConfig s = s)) ∧
  (∀ (f : Finding) (s : State), reloadFails f s = respond .invalidConfig [b8 f.area, b8 f.index, b8 f.reason]
    { s with req := { s.req with reload := .none, reading := none, wantRead := none } }) ∧
  (∀ s : State,
    let halted (i : Fin 6) (y : State) : Prop :=
      ∃ t, (y.tamper.ch.get i).haltStart = some t ∧ t + 1000 * y.req.cfg.haltLimit ≤ y.now
    let probed (y : State) : Prop :=
      y.tamper.probe = false ∧ ∃ t, y.tamper.loiter = .running t ∧ t + 1000 * y.req.cfg.loiter ≤ y.now
    takeSettings s = applyToDialler (applyTamper (recomputeFill { s with call := { s.call with
      almostFull := decide (128 - s.req.cfg.ringMargin ≤ s.call.unacked) } })) ∧
    (s.dial.st = .requesting ∧ s.req.cfg.reportNumber = [] → applyToDialler s = attemptFail .noNumber s) ∧
    (¬ (s.dial.st = .requesting ∧ s.req.cfg.reportNumber = []) → applyToDialler s = s) ∧
    (s.tamper.settling ≠ .running → applyTamper s = s) ∧
    (s.tamper.settling = .running → ∃ y0 y1 y2 y3 y4 y5 y6 y7 : State,
      y0 = { s with tamper := { s.tamper with ch := s.tamper.ch.map fun x => { x with rising := 0, falling := 0 } } } ∧
      (∀ p ∈ [((0 : Fin 6), y0, y1), (1, y1, y2), (2, y2, y3), (3, y3, y4), (4, y4, y5), (5, y5, y6)],
        (halted p.1 p.2.1 → p.2.2 = reseedSet (2 ^ (p.1.val + 1)) p.2.1) ∧ (¬ halted p.1 p.2.1 → p.2.2 = p.2.1)) ∧
      (probed y6 → y7 = openIncident .slotProbe
        { y6 with tamper := { y6.tamper with loiter := .reached, probe := true } }) ∧
      (¬ probed y6 → y7 = y6) ∧ applyTamper s = checkAll y7)) ∧
  (∀ (s : State) (page : Nat) (h : List Byte), s.req.reading = some h →
    let fails (f : Finding) : State :=
      if s.req.reload = .reading then reloadFails f s
      else { s with
        req := { s.req with outcome := f, reading := none, wantRead := none }
        call := { s.call with reasons := { s.call.reasons with configFault := true } }
        start := { s.start with step := 2, want := some (.vault, 6) } }
    let succeeds (c : Settings) : State :=
      if s.req.reload = .reading then reloadSucceeds c s
      else
        let y := takeSettings { s with req := { s.req with cfg := c, defaults := false } }
        { y with
          req := { y.req with reading := none, wantRead := none }
          start := { y.start with step := 2, want := some (.vault, 6) } }
    configPage page none s = fails ⟨1, 0, 1⟩ ∧
    (∀ p,
      (page < 5 → configPage page (some p) s = { s with req := { s.req with
        reading := some (h ++ p), wantRead := some (page + 1) } }) ∧
      (5 ≤ page → ∀ f, checkConfig (h ++ p) = some f → configPage page (some p) s = fails f) ∧
      (5 ≤ page → checkConfig (h ++ p) = none → configPage page (some p) s = succeeds (parseConfig (h ++ p))))) ∧
  (∀ (s : State) (v : Validation), s.tariff.check = some v →
    let ring (y : State) : State := { y with start := { y.start with step := 4, vaultPages := [], want := some (.ring, 74) } }
    let version : Nat := match s.start.vaultPages.getD 3 none with
      | some l => if (l.take 62 |>.map (·.toNat)).sum % 65536 = be2 l 62 ∧ byteAt l 0 ≤ 1 then be2 l 1 else 0
      | none => 0
    let fails (f : Finding) : State :=
      if v.expected = none then ring { s with
        call := { s.call with reasons := { s.call.reasons with tariffFault := true } }
        tariff := { s.tariff with
          bank := v.bank, version := version, shadow := Shadow.empty, clamped := 0, bankSet := true, outcome := f
          check := none, wantRead := none } }
      else activationFails f s
    let succeeds (x : Shadow) : State :=
      if v.expected = none then ring { s with tariff := { s.tariff with
        bank := v.bank, version := x.version, shadow := x, clamped := x.clampCount, bankSet := true
        check := none, wantRead := none } }
      else activationSucceeds x s
    let goesOn (image : List Byte) (pages : Nat) (y : State) : Prop :=
      (image.length / 64 < pages → y = { s with tariff := { s.tariff with
        check := some ⟨v.bank, v.expected, image, pages⟩
        wantRead := some ((if v.bank = .a then 10 else 42) + image.length / 64) } }) ∧
      (pages ≤ image.length / 64 → ∀ f, firstFail (bodyChecks image) = some f → y = fails f) ∧
      (pages ≤ image.length / 64 → firstFail (bodyChecks image) = none → y = succeeds (shadowOf image))
    bankPage none s = fails ⟨1, 0, 1⟩ ∧
    (∀ p f, v.image = [] → firstFail (headerChecks p v.expected) = some f → bankPage (some p) s = fails f) ∧
    (∀ p, v.image = [] → firstFail (headerChecks p v.expected) = none →
      goesOn p ((32 + 16 * byteAt p 4 + 12 * byteAt p 5 + 63) / 64) (bankPage (some p) s)) ∧
    (∀ p, v.image ≠ [] → goesOn (v.image ++ p) v.pages (bankPage (some p) s))) ∧
  (∀ (pre post : List Checked) (f : Finding), (∀ x ∈ pre, x.1 = true) → firstFail (pre ++ (false, f) :: post) = some f) ∧
  (∀ l : List Checked, (∀ x ∈ l, x.1 = true) → firstFail l = none) ∧
  (let tests (l : List Checked) (r : List (Prop × Finding)) : Prop :=
     l.length = r.length ∧ ∀ x ∈ l.zip r, (x.1.1 = true ↔ x.2.1) ∧ x.1.2 = x.2.2
   (∀ (t : List Byte) (e : Option Nat), tests (headerChecks t e)
     [(be2 t 0 = 0x7B1A, ⟨2, 0, 2⟩), ((∀ v, e = some v → be2 t 2 = v), ⟨2, 0, 3⟩),
      (1 ≤ byteAt t 4 ∧ byteAt t 4 ≤ 32, ⟨2, 0, 4⟩), (1 ≤ byteAt t 5 ∧ byteAt t 5 ≤ 96, ⟨2, 0, 4⟩),
      (be2 t 6 ≤ 1439 ∧ be2 t 8 ≤ 1439, ⟨2, 0, 5⟩), (byteAt t 10 ≤ 6, ⟨2, 0, 6⟩),
      (1 ≤ byteAt t 11 ∧ byteAt t 11 ≤ 3, ⟨2, 0, 7⟩), (byteAt t 12 ≤ 30, ⟨2, 0, 8⟩)]) ∧
   (∀ t : List Byte,
     let bands := byteAt t 4
     let entries := byteAt t 5
     let digits (o n top : Nat) : Prop := ∀ j < n, codeAt t o j ≤ top
     tests (bodyChecks t)
       ((((((t.take (32 + 16 * bands + 12 * entries)).map (·.toNat)).sum : Int) - byteAt t 0x1E - byteAt t 0x1F) % 65536
           = be2 t 0x1E, ⟨3, 0, 9⟩)
         :: (List.range bands).flatMap (fun i => let o := 32 + 16 * i
          [(byteAt t o / 16 ≤ 1, ⟨4, i, 10⟩),
           (digits (o + 1) 6 9 ∧ digits (o + 6) 6 9 ∧ digits (o + 9) 6 9 ∧ digits (o + 14) 4 9 ∧
             codeAt t (o + 6) 0 = 0 ∧ codeAt t (o + 9) 0 = 0, ⟨4, i, 11⟩),
           (1 ≤ be2 t (o + 12) ∧ be2 t (o + 12) ≤ 600, ⟨4, i, 12⟩), (be2 t (o + 4) ≤ 600, ⟨4, i, 13⟩)])
         ++ (List.range entries).flatMap (fun i => let o := 32 + 16 * bands + 12 * i
          [(1 ≤ byteAt t o ∧ byteAt t o ≤ 8, ⟨5, i, 14⟩), (digits (o + 1) (byteAt t o) 11, ⟨5, i, 15⟩),
           (byteAt t (o + 5) < bands, ⟨5, i, 16⟩),
           (1 ≤ byteAt t (o + 6) ∧ byteAt t (o + 6) ≤ byteAt t (o + 7) ∧ byteAt t (o + 7) ≤ 20 ∧
             byteAt t o ≤ byteAt t (o + 7), ⟨5, i, 14⟩)])
         ++ (List.range entries).map (fun i => let o := 32 + 16 * bands + 12 * i
          ((∀ j < i, let q := 32 + 16 * bands + 12 * j
            byteAt t q = byteAt t o → ∃ n < byteAt t o, codeAt t (q + 1) n ≠ codeAt t (o + 1) n), ⟨5, i, 17⟩)))) ∧
   (∀ c : List Byte,
     let in_ (lo o hi : Nat) : Prop := lo ≤ byteAt c o ∧ byteAt c o ≤ hi
     let string (o lo hi top : Nat) : Prop := in_ lo o hi ∧ ∀ j < byteAt c o, codeAt c (o + 1) j ≤ top
     checkConfig c = firstFail (configChecks c) ∧
     tests (configChecks c)
       ([((c.take 190 |>.map (·.toNat)).sum % 65536 = be2 c 190, ⟨2, 0, 2⟩), (string 0 1 8 9, ⟨3, 0, 3⟩),
         (string 5 0 16 11, ⟨4, 0, 3⟩), (byteAt c 0x0E ≤ 4, ⟨5, 0, 3⟩)]
       ++ (List.range (min 4 (byteAt c 0x0E))).map (fun i => (string (0x0F + 5 * i) 1 8 9, ⟨5, i, 3⟩))
       ++ (List.range 8).map (fun i => ((∀ j < 4, codeAt c (0x23 + 2 * i) j ≤ 9), ⟨6, i + 1, 4⟩))
       ++ [(byteAt c 0x33 ≤ 1 ∧ byteAt c 0x34 ≤ 1 ∧ in_ 40 0x35 200 ∧ in_ 40 0x36 200 ∧ in_ 1 0x37 15 ∧ byteAt c 0x38 ≤ 60 ∧
            30 ≤ be2 c 0x39 ∧ be2 c 0x39 ≤ 300, ⟨7, 0, 5⟩),
           (in_ 40 0x3B 200 ∧ in_ 10 0x3C 100 ∧ byteAt c 0x3D ≤ 9, ⟨8, 0, 5⟩),
           (100 ≤ be2 c 0x3E ∧ be2 c 0x3E ≤ 4000 ∧ byteAt c 0x40 ≤ 99, ⟨9, 0, 5⟩), (in_ 1 0x41 64, ⟨10, 0, 5⟩),
           (in_ 20 0x42 200 ∧ byteAt c 0x43 ≤ 3 ∧ in_ 4 0x44 10 ∧ in_ 4 0x45 12 ∧ byteAt c 0x46 ≤ 8 ∧ in_ 1 0x47 8 ∧
            10 ≤ be2 c 0x48 ∧ be2 c 0x48 ≤ 600 ∧ in_ 5 0x4A 120, ⟨11, 0, 5⟩)]
       ++ (List.range 6).map (fun i => (1 ≤ be2 c (0x4B + 6 * i) ∧ be2 c (0x4B + 6 * i) < be2 c (0x4D + 6 * i) ∧
            be2 c (0x4D + 6 * i) < be2 c (0x4F + 6 * i) ∧ be2 c (0x4F + 6 * i) ≤ 4095, ⟨12, i + 1, 6⟩))
       ++ (List.range 6).map (fun i => (byteAt c (0x6F + 3 * i) ≤ 2 ∧ byteAt c (0x70 + 3 * i) ≤ 2 ∧ byteAt c (0x71 + 3 * i) ≤ 2,
            ⟨13, i + 1, 5⟩))
       ++ (List.range 16).map (fun i => (byteAt c (0x81 + i) ≤ 3, ⟨14, i + 1, 5⟩))))) ∧
  (∀ c : List Byte,
    let x := parseConfig c
    let string (o : Nat) : List Nat := (List.range (byteAt c o)).map (codeAt c (o + 1))
    let value (o : Nat) : Nat := codeAt c o 0 * 1000 + codeAt c o 1 * 100 + codeAt c o 2 * 10 + codeAt c o 3
    let arm (o : Nat) : ArmLevel :=
      if byteAt c o = 1 then .contact else if byteAt c o = 2 then .forced else .none
    x.stationId = string 0 ∧ x.reportNumber = string 5 ∧
    x.emergency = (List.range (byteAt c 0x0E)).map (fun i => string (0x0F + 5 * i)) ∧
    (∀ k : Fin 8, x.values.get k = value (0x23 + 2 * k.val)) ∧
    (x.dialMethod = .tone ↔ byteAt c 0x33 = 0) ∧ (x.supervision = .supervised ↔ byteAt c 0x34 = 0) ∧
    x.toneOn = byteAt c 0x35 ∧ x.toneOff = byteAt c 0x36 ∧ x.dialToneTimeout = byteAt c 0x37 ∧
    x.assumedDelay = byteAt c 0x38 ∧ x.offhookHold = be2 c 0x39 ∧ x.pulse = byteAt c 0x3B ∧ x.deadTime = byteAt c 0x3C ∧
    x.almostFull = byteAt c 0x3D ∧ x.capacity = be2 c 0x3E ∧ x.margin = byteAt c 0x40 ∧ x.ringMargin = byteAt c 0x41 ∧
    x.scanInterval = byteAt c 0x42 ∧ x.filterShift = byteAt c 0x43 ∧ x.baseShift = byteAt c 0x44 ∧
    x.refShift = byteAt c 0x45 ∧ x.weight = byteAt c 0x46 ∧ x.debounce = byteAt c 0x47 ∧ x.haltLimit = be2 c 0x48 ∧
    x.loiter = byteAt c 0x4A ∧
    (∀ i : Fin 6, x.thresholds.get i =
      ⟨be2 c (0x4B + 6 * i.val), be2 c (0x4D + 6 * i.val), be2 c (0x4F + 6 * i.val)⟩) ∧
    (∀ i : Fin 6, x.arms.get i = ⟨arm (0x6F + 3 * i.val), arm (0x70 + 3 * i.val), arm (0x71 + 3 * i.val)⟩) ∧
    ∀ k : IncidentKind, x.severity.get k = byteAt c (0x80 + kindCode k))

/-! ### The memory (09) -/

/-- A write of n bytes from address a, at most a page long, puts byte i at a + i, wrapping within the page of a, and leaves
every other byte as it was; a longer write overwrites the page's bytes in turn. It keeps the memory's form. -/
def Obligations.StoredBytesWrapInTheirPage : Prop :=
  ∀ (m : List Host.Cell) (a : Nat) (data : List Byte), memWf m = true → a < 32768 →
    memWf (memStore m a data) = true ∧
    (∀ b, (∀ i < data.length, b ≠ a / 64 * 64 + (a % 64 + i) % 64) → memRead (memStore m a data) b = memRead m b) ∧
    (∀ i, i < data.length → data.length ≤ i + 64 →
      memRead (memStore m a data) (a / 64 * 64 + (a % 64 + i) % 64) = data.getD i 0)

/-- The host never changes a byte of the live page, the response page, the vault pages, the call ring or the incident log: no
host transaction, broken off or not, stores there, in whatever state; nor does a held host transaction that
OWN_WRITE_CONFIRMED, OWN_READ_COMPLETE, MEMORY_POLL or OWN_ATTEMPT_FAILURE carries out, and nothing else of these four does:
an own write that the memory does not acknowledge in its middle stores nothing (the model's deduction, log 33). Nor does a
host transaction, held before or not, change a byte of any page whose role is vetoed as it is classified, after an own write
that awaited its confirmation has been confirmed: of the active tariff bank, whose pages are vetoed in every state, of the
request page of a request in work, or of a configuration block being read. -/
def Obligations.HostLeavesProtectedPages : Prop :=
  (∀ (c : Instr) (s t : State), memoryOk s → exec c s = .next t →
    let host : Prop := (∃ a d e k, c = .hostPassedWrite a d e k) ∨ (∃ a d e k, c = .hostVetoedWrite a d e k) ∨
      (∃ a k, c = .hostAddressProbe a k) ∨ (∃ a n k, c = .hostRandomRead a n k) ∨
      (∃ n k, c = .hostCurrentAddressRead n k) ∨ (∃ x, c = .busError x) ∨ (∃ x, c = .clockHoldLimit x)
    let kept (b : Nat) : Prop := memRead t.link.mem b = memRead s.link.mem b
    (host ∨ c = .ownWriteConfirmed ∨ c = .ownReadComplete ∨ (∃ k, c = .memoryPoll k) ∨ (∃ x, c = .ownAttemptFailure x) →
      ∀ b, alwaysVetoed (b / 64) → kept b) ∧
    (host → ∀ b,
      guardRole (if s.writer.phase = .awaiting then settle (confirmWrite s) else s) (b / 64) = .vetoed → kept b)) ∧
  (∀ (x : HostTxn) (held : Bool) (s : State), memoryOk s → x.inMemory = true → ∀ b, guardRole s (b / 64) = .vetoed →
    memRead (perform x held s).link.mem b = memRead s.link.mem b) ∧
  (∀ (s : State) (p : Nat), (s.tariff.bank = .a ∧ 10 ≤ p ∧ p ≤ 41) ∨ (s.tariff.bank = .b ∧ 42 ≤ p ∧ p ≤ 73) →
    guardRole s p = .vetoed)

/-- Only host writes, what a bus error or the hold limit leaves of one, the record writer's own writes, a reset in the
middle of one and a MEMORY_FAULT that undoes an unconfirmed one (the model's deduction, log 33) change the memory: no other
command does, in any state. A held host write is carried out by the command that ends its hold. -/
def Obligations.OnlyWritesChangeMemory : Prop :=
  ∀ (c : Instr) (s t : State), exec c s = .next t →
    (∀ a d e k, c ≠ .hostPassedWrite a d e k) → (∀ a d e k, c ≠ .hostVetoedWrite a d e k) →
    (∀ a d, c ≠ .busError (.inWrite a d)) → (∀ a d, c ≠ .clockHoldLimit (.inWrite a d)) →
    c ≠ .powerOnReset → c ≠ .rstReset → c ≠ .ownWriteStop → (c ≠ .memoryFault ∨ s.writer.phase ≠ .awaiting) →
    (s.link.held = none ∨ (c ≠ .ownWriteConfirmed ∧ c ≠ .ownReadComplete ∧ (∀ k, c ≠ .memoryPoll k) ∧
      ∀ x, c ≠ .ownAttemptFailure x)) →
    t.link.mem = s.link.mem

/-! ### Host transactions (09) -/

/-- The roles of the pages: the request page is passed while the handler is IDLE, the configuration pages while the block is
neither being read nor awaiting its application, a bank's pages once start-up has set the active bank, if the bank is neither
active nor the one that an activation concerns, and the pages from 234 on; all others are vetoed. A host write whose device
address the memory acknowledges, with no own transaction running and none held, is performed; before it the acknowledge confirms
an own write that awaits it. Of the two rows either may be sent: the guard classifies it by the role of its page (the model's
choice, log 17). Passed and ended by a stop, its bytes are stored
and both pointers follow; into the request page they are kept in the image, each at its place, and a write that covers the code
byte with a code other than 0 is taken as a request; of a write of more than 64 bytes that covers it twice, the code it leaves
there decides (the model's choice, log 31). Passed and ended by a repeated start it stores nothing and the pointer is unknown.
Vetoed it stores nothing, the memory's pointer stands at the word address, and the veto is counted. A not-acknowledge of the
memory is relayed: at a word-address byte the pointer is unknown; at the byte after the data, the data are stored, or
without data the address is set. The marks of a transaction that a repeated start has carried on count on, and its end records
VETOED before HELD before PASSING. Four points are the model's deductions (log 22, log 32): where a repeated start leaves the
host pointer, that one to another device ends the transaction, and what a not-acknowledge leaves. -/
def Obligations.HostWrites : Prop :=
  (∀ (s : State) (p : Nat),
    guardRole s 1 = (if s.req.st = .idle then .passed else .vetoed) ∧
    (3 ≤ p ∧ p ≤ 5 → guardRole s p = if s.req.reading = none ∧ s.req.reload = .none then .passed else .vetoed) ∧
    (∀ k : Bank, (k = .a ∧ 10 ≤ p ∧ p ≤ 41) ∨ (k = .b ∧ 42 ≤ p ∧ p ≤ 73) → guardRole s p =
      if s.tariff.bankSet = true ∧ s.tariff.bank ≠ k ∧ (s.tariff.activation = .none ∨ s.tariff.pendBank ≠ k)
      then .passed else .vetoed) ∧
    (234 ≤ p → guardRole s p = .passed) ∧
    (p = 0 ∨ p = 2 ∨ (6 ≤ p ∧ p ≤ 9) ∨ (74 ≤ p ∧ p ≤ 233) → guardRole s p = .vetoed)) ∧
  (∀ (image data : List Byte) (a : Nat), image.length = 64 →
    (imageWith image a data 0).length = 64 ∧
    (∀ i, i < data.length → data.length ≤ i + 64 → (imageWith image a data 0).getD ((a + i) % 64) 0 = data.getD i 0) ∧
    (∀ b, (∀ i < data.length, b ≠ (a + i) % 64) → (imageWith image a data 0).getD b 0 = image.getD b 0)) ∧
  (∀ (a : Addr) (data : List Byte) (e : WriteEnd) (s : State), a.toNat < 0x8000 → s.start.phase ≠ .resetting →
    (∀ k, exec (.hostPassedWrite a data e k) s = exec (.hostVetoedWrite a data e k) s) ∧
    (s.link.held = none → s.writer.phase.running = false →
      exec (.hostPassedWrite a data e true) s = .next (refreshPins (settle (perform (.write a.toNat data e) false
        (if s.writer.phase = .awaiting then settle (confirmWrite s) else s)))))) ∧
  ∀ (a : Nat) (data : List Byte) (held : Bool) (s : State),
    let m : Marks := ⟨(s.link.openTxn.getD ⟨false, false⟩).vetoed, (s.link.openTxn.getD ⟨false, false⟩).held || held⟩
    let write (e : WriteEnd) : State := perform (.write a data e) held s
    let status : LinkStatus := if m.vetoed = true then .vetoed else if m.held = true then .held else .passing
    let ended (l : Link) : State := { s with link := { l with hostData := [], status := status, openTxn := none } }
    let goesOn (x : Marks) (l : Link) : State := { s with link := { l with hostAck := true, hostData := [], openTxn := some x } }
    write .refusedAddress = ended { s.link with tracked := none, hostAck := false } ∧
    (data = [] →
      let set : Link := { s.link with tracked := some a, hostPtr := a }
      write .stop = ended { set with hostAck := true } ∧ write .otherDevice = ended { set with hostAck := true } ∧
      write .repeatedStart = goesOn m set ∧
      (guardRole s (a / 64) = .passed → write .refusedByte = ended { set with hostAck := false })) ∧
    (guardRole s (a / 64) = .passed → data ≠ [] →
      (∀ (e : WriteEnd) (ok : Bool), (e = .stop ∧ ok = true) ∨ (e = .refusedByte ∧ ok = false) →
        let stored : State := ended { s.link with
          mem := memStore s.link.mem a data, tracked := some (pageWrap a data.length)
          hostPtr := pageWrap a data.length, lastWriter := .host, stopTime := s.now, hostAck := ok }
        let requested : State := { stored with link := { stored.link with image := imageWith s.link.image a data 0 } }
        (a / 64 ≠ 1 → write e = stored) ∧
        (a / 64 = 1 →
          ((∃ i < data.length, pageWrap a i = 0x40) ∧ byteAt requested.link.image 0 ≠ 0 →
            write e = takeRequest requested.link.image requested) ∧
          (¬ ((∃ i < data.length, pageWrap a i = 0x40) ∧ byteAt requested.link.image 0 ≠ 0) → write e = requested))) ∧
      write .repeatedStart = goesOn m { s.link with tracked := none, hostPtr := a } ∧
      write .otherDevice = ended { s.link with tracked := none, hostPtr := a, hostAck := true }) ∧
    (guardRole s (a / 64) = .vetoed → data ≠ [] →
      let counted : Link := { s.link with tracked := some a, vetoes := bump 65535 s.link.vetoes, lastVetoed := a }
      let absorbed (l : Link) : State := { s with link := { l with
        hostAck := true, hostData := [], status := .vetoed, openTxn := none } }
      write .stop = absorbed { counted with hostPtr := pageWrap a data.length } ∧
      write .refusedByte = absorbed { counted with hostPtr := pageWrap a data.length } ∧
      write .repeatedStart = goesOn ⟨true, m.held⟩ { counted with hostPtr := a } ∧
      write .otherDevice = absorbed { counted with hostPtr := a })

/-- Host reads and address settings that the memory acknowledges, with no own transaction running and none held; the
acknowledge confirms an own write that awaits it, and what follows from that is done before the snapshot is taken. A read's
bytes are the snapshot's in page 0 and the memory's elsewhere, wrapping at the end of the memory; both pointers end behind
it, and a current-address read begins at the host pointer. An address setting sets both pointers; the device address alone
changes neither. A stop ends each with the status VETOED before HELD before PASSING, of all the parts of the transaction; a
repeated start to the memory keeps the transaction open, its status unrecorded as yet (the model's deduction, log 32). During
RESETTING no host transaction is acknowledged, a write neither, and a bus error or a hold limit changes nothing. The snapshot
is the live page: 64 bytes, each row of its four views at its offset, a set of kinds with kind k at bit k - 1; the remaining
times, in whole seconds, are truncated (the model's deduction, log 18); with no last collection its sequence and value are 0
(the model's choice, log 31). Numbers are high byte first, money packed decimal, a digit string its length and its codes with
15 past its end. -/
def Obligations.HostReads : Prop :=
  ∀ s : State,
    (s.start.phase = .resetting → ∀ (x : Option Addr) (a : Addr) (data : List Byte) (e : WriteEnd) (b : Bool) (n : Nat)
      (k : HostCourse),
      let t : State := { s with link := { s.link with hostAck := false, hostData := [] } }
      exec (.hostAddressProbe x k) s = .next (refreshPins (settle t)) ∧
      exec (.hostRandomRead a n k) s = .next (refreshPins (settle t)) ∧
      exec (.hostCurrentAddressRead n k) s = .next (refreshPins (settle t)) ∧
      exec (.hostPassedWrite a data e b) s = .next (refreshPins (settle t)) ∧
      exec (.hostVetoedWrite a data e b) s = .next (refreshPins (settle t)) ∧
      (∀ x, exec (.busError x) s = .next (refreshPins s)) ∧ ∀ x, exec (.clockHoldLimit x) s = .next (refreshPins s)) ∧
    (s.start.phase ≠ .resetting → s.link.held = none → s.writer.phase.running = false → ∀ again : Bool,
      let done (x : HostTxn) : Host.Outcome State Fault Refusal := .next (refreshPins (settle (perform x false
        (if s.writer.phase = .awaiting then settle (confirmWrite s) else s))))
      (∀ (a : Addr) (n : Nat), a.toNat < 0x8000 →
        exec (.hostRandomRead a n ⟨true, again⟩) s = done (.read a.toNat n again)) ∧
      (∀ n, exec (.hostCurrentAddressRead n ⟨true, again⟩) s = done (.readCurrent n again)) ∧
      (∀ a : Addr, a.toNat < 0x8000 →
        exec (.hostAddressProbe (some a) ⟨true, again⟩) s = done (.probe (some a.toNat) again)) ∧
      exec (.hostAddressProbe none ⟨true, again⟩) s = done (.probe none again)) ∧
    (∀ again held : Bool,
      let m : Marks := ⟨(s.link.openTxn.getD ⟨false, false⟩).vetoed, (s.link.openTxn.getD ⟨false, false⟩).held || held⟩
      let ends (l : Link) : State := { s with link :=
        if again = true then { l with hostAck := true, openTxn := some m }
        else { l with
          hostAck := true, openTxn := none
          status := if m.vetoed = true then .vetoed else if m.held = true then .held else .passing } }
      let read (a n : Nat) : State := ends { s.link with
        snapshot := livePage s
        hostData := (List.range n).map fun i =>
          if (a + i) % 32768 < 64 then (livePage s).getD ((a + i) % 32768) 0 else memRead s.link.mem ((a + i) % 32768)
        tracked := some ((a + n) % 32768), hostPtr := (a + n) % 32768 }
      (∀ a n, perform (.read a n again) held s = read a n) ∧
      (∀ n, perform (.readCurrent n again) held s = read s.link.hostPtr n) ∧
      (∀ a, perform (.probe (some a) again) held s = ends { s.link with tracked := some a, hostPtr := a, hostData := [] }) ∧
      perform (.probe none again) held s = ends { s.link with hostData := [] }) ∧
    (let p := livePage s
     let v := byteAt s.link.image 0x3F
     let row (o : Nat) (l : List Byte) : Prop := (p.drop o).take l.length = l
     let f (b : Bool) (n : Nat) : Nat := if b = true then n else 0
     let kinds (o : Nat) (w : Slot → Bool) : Prop :=
       ∀ k : IncidentKind, (be2 p o).testBit (kindCode k - 1) = (s.inc.slots.get k).any w
     p.length = 64 ∧
     row 0x00 [b8 (if v ≤ 3 then v else 0),
       b8 (s.start.phase.code * 16 + if s.start.phase = .scanning then s.start.step else 0),
       b8 s.call.st.code, b8 s.link.status.code] ∧
     (v = 0 ∨ 3 < v →
       row 0x04 [b8 s.call.lastCause.code,
         b8 (f (s.call.hook == .off) 1 + f s.call.followOn 2 + f s.acct.lowCredit 4 + f (s.call.st == .grace) 8
           + f (frozen s) 16 + f s.call.almostFull 32 + f s.call.seq.isSome 64 + f s.clock.isSet 128)] ∧
       row 0x06 (w16 (s.call.seq.getD 0)) ∧
       row 0x08 [b8 s.call.reasons.mask, b8 s.call.unacked, b8 s.call.unrecorded] ∧
       row 0x0B (money6 s.acct.available ++ money6 s.acct.b ++ money6 s.acct.e ++ money6 s.acct.c ++ money6 s.acct.o) ∧
       row 0x1A (w16 s.acct.units) ∧
       row 0x1C [b8 s.coin.transit.length, b8 s.coin.escrow.length, b8 s.coin.strayStrobes, b8 s.coin.strayReturns,
         b8 s.coin.strayVault, b8 s.coin.purged] ∧
       row 0x22 (w16 s.num.refused ++ [b8 s.num.lastRefusal.code, b8 s.num.dropped]) ∧
       row 0x26 (packString s.num.buffer 10) ∧
       row 0x31 [b8 s.line.owner.code, b8 s.line.st.code, b8 s.line.seizeFails, b8 s.line.lineLosses] ∧
       row 0x35 (stampBytes s.stamp)) ∧
     (v = 1 →
       kinds 0x04 (fun _ => true) ∧ kinds 0x06 (·.active) ∧
       kinds 0x08 (fun x => x.report == .unreported || x.report == .marked) ∧ kinds 0x0A (·.closedPending) ∧
       row 0x0C [b8 s.inc.unacked, b8 s.dial.st.code, b8 s.dial.attempts,
         b8 (f s.dial.testMark 1 + f s.vault.fillWarning 2 + f s.vault.windowEnd.isSome 4),
         b8 s.dial.outcome.code, b8 s.dial.reason.code] ∧
       row 0x12 (w16 ((s.dial.retryEnd.map fun t => (t - s.now) / 1000).getD 0)) ∧
       row 0x14 (w16 s.dial.delivered) ∧ row 0x16 (w16 (min 65535 s.vault.fill)) ∧
       row 0x18 (w16 ((s.vault.windowEnd.map fun t => (t - s.now) / 1000).getD 0)) ∧
       row 0x1A [b8 (f s.vault.doorOpen 1), b8 (f s.vault.boxPresent 1), b8 s.vault.session.code] ∧
       row 0x1D (w16 s.vault.epoch ++ w16 s.vault.collSeq ++ money8 s.vault.since.value) ∧
       (s.vault.summary = none → row 0x25 [0, 0, 0, 0, 0, 0, 0]) ∧
       (∀ x, s.vault.summary = some x → row 0x25 (w16 x.seq ++ money8 x.value ++ [b8 x.kind.code]))) ∧
     (v = 2 → ∀ k : IncidentKind,
       (s.inc.slots.get k = none → row (4 + 3 * (kindCode k - 1)) [0, 0, 0]) ∧
       (∀ x, s.inc.slots.get k = some x → row (4 + 3 * (kindCode k - 1)) (w16 x.seq ++ [b8 x.triggers]))) ∧
     (v = 3 →
       row 0x04 [b8 s.tamper.context.code, b8 s.tamper.inForce.code, b8 s.tamper.settling.code, b8 s.tamper.settleCount] ∧
       row 0x08 (s.tamper.ch.toList.map fun c => b8 c.level.code) ∧
       row 0x0E (b8 s.tamper.ref.reseeds :: s.tamper.ch.toList.map fun c => b8 c.reseeds) ∧
       row 0x15 (b8 s.tariff.bank.code :: w16 s.tariff.version ++ [b8 s.tariff.activation.code]) ∧
       (s.tariff.activation = .none → row 0x19 [0, 0, 0]) ∧
       (s.tariff.activation ≠ .none → row 0x19 (b8 s.tariff.pendBank.code :: w16 s.tariff.pendVersion)) ∧
       row 0x1C (b8 s.tariff.clamped :: findingBytes s.tariff.outcome ++ findingBytes s.req.outcome) ∧
       row 0x23 [b8 s.req.st.code, b8 s.req.lastCode, b8 s.req.lastTag, b8 s.req.lastResult, b8 s.req.lost,
         b8 s.req.reload.code] ∧
       row 0x29 (w16 s.link.vetoes ++ w16 s.link.lastVetoed) ∧
       row 0x2D [b8 s.link.memFaults, b8 s.writer.queue.length, b8 s.writer.dropped,
         b8 (f s.req.defaults 1 + f s.tariff.unwritten 2)])) ∧
    (let two (n : Nat) : Byte := b8 (n / 10 % 10 * 16 + n % 10)
     let r := s.call.reasons
     let f (b : Bool) (n : Nat) : Nat := if b = true then n else 0
     (∀ n : Nat, w16 n = [b8 (n / 256), b8 n] ∧ w24 n = [b8 (n / 65536), b8 (n / 256), b8 n] ∧
       w32 n = [b8 (n / 16777216), b8 (n / 65536), b8 (n / 256), b8 n] ∧
       money6 n = [two (n / 10000), two (n / 100), two n] ∧
       money8 n = [two (n / 1000000), two (n / 10000), two (n / 100), two n]) ∧
     (∀ x : Stamp, stampBytes x = w16 x.day ++ w24 x.sec) ∧
     (∀ x : Finding, findingBytes x = [b8 x.area, b8 x.index, b8 x.reason]) ∧
     (∀ l : List Nat, packString l 10 = b8 l.length ::
       (List.range 10).map fun i => b8 (l.getD (2 * i) 15 * 16 + l.getD (2 * i + 1) 15)) ∧
     r.mask = f r.slotJam 1 + f r.chuteBlocked 2 + f r.flapFault 4 + f r.vaultFull 8 + f r.ringFull 16 + f r.tariffFault 32
       + f r.accountFault 64 + f r.configFault 128)

/-- A host transaction of whatever kind that meets an own transaction is held; one that the memory does not acknowledge is
held after an own write, and else gets its not-acknowledge, which ends it unless the host makes a repeated start. A held one
goes on with the next poll that is acknowledged, or the confirmation of the own write, marked held, and as one that is
acknowledged at once does; at the end of an own transaction it is forwarded, after what that end brings about: it goes on, is
held on after an own write, or gets its not-acknowledge. MEMORY_FAULT releases it with a not-acknowledge. That MEMORY_FAULT
counts a memory fault also where the own transaction still polls its start, and OWN_ATTEMPT_FAILURE ends those polls without
one, is the model's deduction (log 21); so is that an unconfirmed own write is undone by the one, and one cut in its middle
stores nothing by the other (log 33). A bus error abandons the transaction: in the address the pointer is unknown; in a
passed write the complete bytes are stored, and no request is taken; in a vetoed one with data the veto is counted; in a read
the host has the complete bytes and both pointers count them; with an own transaction running or the host's held, it stands
at its device address, whatever place the command names (the model's deduction, log 22), so nothing is stored and the pointer
is unknown. Behind its device address, once the memory has acknowledged that, an own write that awaited it is confirmed.
Holds that add up to 12 ms end the transaction: not acknowledged at its device address, a word-address byte or a data byte, a
read with 0xFF in place of the byte that was to come; the bytes of a cut write to page 1 enter the request-page image. What
ends a transaction that a repeated start has carried on counts its earlier marks and holds. The hold timer as it stands, the
forms of the hold limit, and that the host pointer counts the 0xFF byte, are the model's (log 5, 10, 22, 32). -/
def Obligations.HeldAndBrokenTransactions : Prop :=
  ∀ s : State, s.start.phase ≠ .resetting →
    let m : Marks := s.link.openTxn.getD ⟨false, false⟩
    let heldStatus : LinkStatus := if m.vetoed = true then .vetoed else .held
    let y : State := if s.writer.phase = .awaiting then settle (confirmWrite s) else s
    let next (z : State) : Host.Outcome State Fault Refusal := .next (refreshPins (settle z))
    (∀ (a : Addr) (data : List Byte) (e : WriteEnd) (n : Nat) (again : Bool), a.toNat < 0x8000 → s.link.held = none →
      let waits (x : HostTxn) : Host.Outcome State Fault Refusal := next { s with link := { s.link with
        held := some x, holdSince := s.now, holdSum := if m.held = true then s.link.holdSum else 0 } }
      let meets (c : Bool → Instr) (x : HostTxn) (goesOn : Bool) : Prop :=
        (s.writer.phase.running = true → ∀ k, exec (c k) s = waits x) ∧
        (s.writer.phase.running = false →
          (s.link.lastWriter = .own → exec (c false) s = waits x) ∧
          (s.link.lastWriter ≠ .own → exec (c false) s = next { s with link := { s.link with
            hostAck := false, hostData := []
            openTxn := if goesOn = true then some m else none
            status := if goesOn = true then s.link.status else if m.vetoed = true then .vetoed
              else if m.held = true then .held else .passing } }))
      meets (.hostPassedWrite a data e) (.write a.toNat data e) (e == .repeatedStart) ∧
      meets (.hostVetoedWrite a data e) (.write a.toNat data e) (e == .repeatedStart) ∧
      meets (fun k => .hostAddressProbe none ⟨k, again⟩) (.probe none again) again ∧
      meets (fun k => .hostAddressProbe (some a) ⟨k, again⟩) (.probe (some a.toNat) again) again ∧
      meets (fun k => .hostRandomRead a n ⟨k, again⟩) (.read a.toNat n again) again ∧
      meets (fun k => .hostCurrentAddressRead n ⟨k, again⟩) (.readCurrent n again) again) ∧
    (∀ x : HostTxn, s.start.rstHeld = false → s.link.held = some x →
      let again : Bool := match x with
        | .write _ _ e => e == .repeatedStart
        | .probe _ b => b
        | .read _ _ b => b
        | .readCurrent _ b => b
      let goes (z : State) : State := perform x true { z with link := { z.link with
        held := none, holdSum := z.link.holdSum + (z.now - z.link.holdSince) } }
      let forwarded (ack : Bool) (z : State) : State :=
        if ack = true then goes z
        else if z.link.lastWriter = .own then z
        else { z with link := { z.link with
          held := none, hostAck := false, hostData := []
          openTxn := if again = true then some ⟨m.vetoed, true⟩ else none
          status := if again = true then z.link.status else heldStatus } }
      (s.writer.phase.running = false → exec (.memoryPoll true) s = next (goes y)) ∧
      (s.writer.phase = .awaiting → exec .ownWriteConfirmed s = next (goes y)) ∧
      exec (.memoryPoll false) s = next s ∧
      (∀ p, s.writer.phase = .reading p →
        exec .ownReadComplete s = next (forwarded true (settle (readDone p s))) ∧
        ∀ n k, exec (.ownAttemptFailure ⟨n, k⟩) s = next (forwarded k (settle (failAttempt { s with link := { s.link with
          tracked := none } })))) ∧
      (∀ p d, s.writer.phase = .writing p d → ∀ k,
        exec (.ownAttemptFailure ⟨.inAddress, k⟩) s = next (forwarded k (settle (failAttempt { s with link := { s.link with
          tracked := none } }))) ∧
        (∀ n, n < d.length → exec (.ownAttemptFailure ⟨.atData n, k⟩) s = next (forwarded k (settle (failAttempt { s with
          link := { s.link with tracked := some (pageWrap p n) } }))))) ∧
      (∀ d, s.writer.phase = .polling → s.writer.limit = some d → ∀ n k, exec (.ownAttemptFailure ⟨n, k⟩) s =
        next (forwarded k (settle (failAttempt { s with now := max s.now d })))) ∧
      (∀ d,
        let refused (mem : List Host.Cell) : State := { s with
          now := max s.now d
          link := { s.link with
            mem := mem, memFaults := bump 255 s.link.memFaults, lastWriter := .none, held := none, openTxn := none
            hostAck := false, hostData := [], status := heldStatus } }
        (s.writer.phase = .idle → s.link.lastWriter = .own → d = s.link.stopTime + 10 →
          exec .memoryFault s = next (refused s.link.mem)) ∧
        (s.writer.phase = .polling → s.writer.limit = some d →
          exec .memoryFault s = next (failAttempt (refused s.link.mem))) ∧
        (s.writer.phase = .awaiting → s.writer.limit = some d →
          (s.writer.earlier = none → exec .memoryFault s = next (failAttempt (refused s.link.mem))) ∧
          (∀ p old, s.writer.earlier = some (p, old) →
            exec .memoryFault s = next (failAttempt (refused (memStore s.link.mem p old))))))) ∧
    (∀ (a : Addr) (data : List Byte) (n : Nat), a.toNat < 0x8000 →
      let broken (z : State) (l : Link) : State := { z with link := { l with status := .busError, openTxn := none } }
      (s.link.held = none → s.writer.phase.running = false →
        let readFrom (x : Nat) : Host.Outcome State Fault Refusal := next (broken y { y.link with
          snapshot := livePage y, hostAck := true, hostData := readBytes (livePage y) y.link.mem x n
          tracked := some ((x + n) % 32768), hostPtr := (x + n) % 32768 })
        exec (.busError (.inAddress false)) s = next (broken s { s.link with tracked := none }) ∧
        exec (.busError (.inAddress true)) s = next (broken y { y.link with tracked := none }) ∧
        (guardRole y (a.toNat / 64) = .passed → exec (.busError (.inWrite a data)) s = next (broken y { y.link with
          mem := memStore y.link.mem a.toNat data, tracked := some (pageWrap a.toNat data.length)
          hostPtr := pageWrap a.toNat data.length
          lastWriter := if data = [] then y.link.lastWriter else .host
          stopTime := if data = [] then y.link.stopTime else y.now })) ∧
        (guardRole y (a.toNat / 64) = .vetoed → exec (.busError (.inWrite a data)) s = next (broken y { y.link with
          tracked := some a.toNat, hostPtr := pageWrap a.toNat data.length
          vetoes := if data = [] then y.link.vetoes else bump 65535 y.link.vetoes
          lastVetoed := if data = [] then y.link.lastVetoed else a.toNat })) ∧
        exec (.busError (.inRead (some a) n)) s = readFrom a.toNat ∧
        exec (.busError (.inRead none n)) s = readFrom y.link.hostPtr) ∧
      (s.link.held.isSome = true ∨ s.writer.phase.running = true →
        ∀ x, (∃ k, x = .inAddress k) ∨ x = .inWrite a data ∨ x = .inRead (some a) n ∨ x = .inRead none n →
          exec (.busError x) s = next (broken s { s.link with held := none, tracked := none }))) ∧
    (∀ (a : Addr) (data : List Byte) (n : Nat), a.toNat < 0x8000 →
      let refused (z : State) (l : Link) : State := { z with link := { l with
        hostAck := false, hostData := [], status := heldStatus, openTxn := none } }
      let cut (x : Nat) : Host.Outcome State Fault Refusal := next { y with link := { y.link with
        snapshot := livePage y, hostAck := true, status := heldStatus, openTxn := none
        hostData := readBytes (livePage y) y.link.mem x n ++ [255#8]
        tracked := some ((x + n) % 32768), hostPtr := (x + n + 1) % 32768 } }
      (s.link.held.isSome = true → exec (.clockHoldLimit .atAcknowledge) s = .next (refreshPins
        { refused s { s.link with held := none } with now := max s.now (s.link.holdSince + (12 - s.link.holdSum)) })) ∧
      (s.link.held = none → exec (.clockHoldLimit .atAcknowledge) s = .next (refreshPins s)) ∧
      (s.link.held = none → s.writer.phase.running = false →
        exec (.clockHoldLimit .inAddress) s = next (refused y { y.link with tracked := none }) ∧
        (guardRole y (a.toNat / 64) = .passed → exec (.clockHoldLimit (.inWrite a data)) s = next
          (refused y { y.link with
            mem := memStore y.link.mem a.toNat data, tracked := some (pageWrap a.toNat data.length)
            hostPtr := pageWrap a.toNat data.length
            image := if a.toNat / 64 = 1 then imageWith y.link.image a.toNat data 0 else y.link.image
            lastWriter := if data = [] then y.link.lastWriter else .host
            stopTime := if data = [] then y.link.stopTime else y.now })) ∧
        (guardRole y (a.toNat / 64) = .vetoed → exec (.clockHoldLimit (.inWrite a data)) s = next y) ∧
        exec (.clockHoldLimit (.inRead (some a) n)) s = cut a.toNat ∧
        exec (.clockHoldLimit (.inRead none n)) s = cut y.link.hostPtr))

/-! ### The record writer (09) -/

/-- The record writer. With no host transaction waiting or open, an own transaction of the head item starts while PFW is
clear, or if the item is in progress or a checkpoint; met by a not-acknowledge its device address is polled for 10 ms, of
which that address is the first poll (the model's deduction, log 21). A write's stop stores its bytes and awaits the
confirmation for 10 ms, with what stood there noted (the model's own, log 33); confirmed, the item leaves, but page C of a
COLLECTION is followed by page B. A read gives its 64 bytes to its producer, the page of the configuration, the bank, the
vault, the ring or the log. A poll that is acknowledged goes on, but waits while a host transaction is open; one that is not
changes nothing. An item's transaction: its address, its data as they stand at the acknowledge, with which a write begins
(the model's choice, log 31), and behind them the check word, the sum of the 62 or 30 bytes before it; page A, B, C and D row
by row. -/
def Obligations.OwnTransactions : Prop :=
  (∀ (s : State) (i : Item) (rest : List Item), s.start.rstHeld = false → s.writer.queue = i :: rest →
    let left : State := { s with writer := { s.writer with
      queue := rest, phase := .idle, begun := false, taken := false, part := 0, tries := 0, limit := none, earlier := none } }
    let running : State := { s with writer := { s.writer with
      phase := transactionOf s i, begun := true, taken := true, limit := none } }
    let done : State := if isCollection i = true ∧ s.writer.part = 0 then
        { s with writer := { s.writer with phase := .idle, part := 1, tries := 0, limit := none, earlier := none } }
      else itemWritten i left
    let mayStart : Prop := s.writer.phase = .idle ∧ s.link.held = none ∧ s.link.openTxn = none ∧
      (s.pfw = false ∨ s.writer.begun = true ∨ isCheckpoint i = true)
    (mayStart → exec (.ownTransactionStart true) s = .next (refreshPins running) ∧
      exec (.ownTransactionStart false) s = .next (refreshPins { s with writer := { s.writer with
        begun := true, phase := .polling, limit := some (s.now + 10) } })) ∧
    (¬ mayStart → ∀ k, exec (.ownTransactionStart k) s = .next (refreshPins s)) ∧
    (∀ a d, s.writer.phase = .writing a d → exec .ownWriteStop s = .next (refreshPins { s with
      link := { s.link with
        mem := memStore s.link.mem a d, tracked := some (pageWrap a d.length), lastWriter := .own, stopTime := s.now }
      writer := { s.writer with
        phase := .awaiting, limit := some (s.now + 10)
        earlier := some (a, (List.range d.length).map fun j => memRead s.link.mem (pageWrap a j)) } })) ∧
    (s.writer.phase = .awaiting → confirmWrite s = done ∧ (s.link.held = none →
      exec .ownWriteConfirmed s = .next (refreshPins (settle done)) ∧
      exec (.memoryPoll true) s = .next (refreshPins (settle done)))) ∧
    (s.writer.phase = .polling → s.link.held = none →
      (s.link.openTxn = none → exec (.memoryPoll true) s = .next (refreshPins (settle running))) ∧
      (s.link.openTxn ≠ none → exec (.memoryPoll true) s = .next (refreshPins (settle s)))) ∧
    exec (.memoryPoll false) s = .next (refreshPins (settle s)) ∧
    (∀ a f p, s.writer.phase = .reading a → i = .read f p →
      readDone a s = deliver f p (some (memLoad s.link.mem a 64)) { left with link := { s.link with
        tracked := some ((a + 64) % 32768) } } ∧
      (s.link.held = none → exec .ownReadComplete s = .next (refreshPins (settle (readDone a s)))))) ∧
  (∀ s : State,
    let checked (l : List Byte) : List Byte := l ++ w16 (l.map (·.toNat)).sum
    let coins (c : Counts) : List Byte :=
      w32 (c.coins.get 0) ++ w32 (c.coins.get 1) ++ w32 (c.coins.get 2) ++ w32 (c.coins.get 3) ++ w32 (c.coins.get 4)
        ++ w32 (c.coins.get 5) ++ w32 (c.coins.get 6) ++ w32 (c.coins.get 7) ++ w32 c.stray
    (∀ r, transactionOf s (.record r) = .writing (0x1280 + 64 * (r.seq % 128)) (checked r.body)) ∧
    (∀ (p : Nat) (bytes : Option (List Byte)),
      deliver .config p bytes s = configPage p bytes s ∧ deliver .bank p bytes s = bankPage bytes s ∧
      deliver .vault p bytes s = vaultPage p bytes s ∧ deliver .ring p bytes s = ringPage p bytes s ∧
      deliver .log p bytes s = logPage p bytes s) ∧
    transactionOf s .vaultUpdate = .writing 0x180 (checked (coins s.vault.life ++ w32 s.vault.unconfirmed
      ++ money8 s.vault.life.value ++ w16 s.vault.epoch ++ [if s.vault.sat = true then 1 else 0] ++ List.replicate 15 0)) ∧
    (∀ c b, transactionOf s (.collection c b) =
      if s.writer.part = 0 then .writing 0x200 (checked c) else .writing 0x1C0 (checked b)) ∧
    (∀ l, transactionOf s (.response l) = .writing 0x80 (checked l)) ∧
    (∀ (k : Bank) (v : Nat), transactionOf s (.bankSwitch k v) =
      .writing 0x240 (checked ([if k = .a then 0 else 1] ++ w16 v ++ List.replicate 59 0))) ∧
    (∀ n l, transactionOf s (.incident n l) = .writing (0x3280 + 32 * (n % 64)) (checked l)) ∧
    (∀ f p, transactionOf s (.read f p) = .reading (64 * p)) ∧
    (∀ x : PageB, pageBBody x =
      coins x.base ++ money8 x.base.value ++ w16 x.epoch ++ w16 x.seq ++ List.replicate 18 0) ∧
    (∀ x : Collection, pageCBody x = w16 x.seq ++ [b8 x.kind.code] ++ w16 x.epoch ++ w16 x.time.day ++ w24 x.time.sec
      ++ [b8 ((if x.time.isSet = true then 1 else 0) + (if x.exchanged = true then 2 else 0) + if x.sat = true then 4 else 0)]
      ++ coins x.since ++ money8 x.since.value ++ w16 x.doorOpen ++ List.replicate 9 0))

/-- Attempts that fail; the commands, with no host transaction waiting. After the 10 ms of polls MEMORY_FAULT counts a memory fault, also
at a start (the model's, log 21), the last writer is NONE, and an unconfirmed write is undone; a not-acknowledge in the
middle of an own write stores nothing of it, and the pointer stands behind the acknowledged bytes, or is unknown in the
address (the model's deductions, log 33, 22). The first and the second failure leave the transaction to be made again; at
the third the item leaves as dropped. Written or dropped, a CLOSED record moves L, and so does a record that start-up rewrites, an incident record moves L_i, a response
makes the handler IDLE. A drop is counted; a record, a vault update or a collection dropped raises ACCOUNT_FAULT with its
incident and discards a held collection, not a held update (the model's, log 23); a BANK_SWITCH does so with the indicator
left unwritten, a response is counted as lost, and a read's producer is told that it failed. -/
def Obligations.AttemptsAndDrops : Prop :=
  (∀ (s : State) (i : Item) (rest : List Item), s.writer.queue = i :: rest →
       let failed (y : State) : State :=
         if s.writer.tries + 1 < 3 then
           { y with writer := { s.writer with phase := .idle, tries := s.writer.tries + 1, limit := none, earlier := none } }
         else itemDropped i { y with writer := { s.writer with
           queue := rest, phase := .idle, begun := false, taken := false, part := 0, tries := 0, limit := none
           earlier := none } }
       failAttempt s = failed s ∧ (s.start.rstHeld = false → s.link.held = none →
       (∀ d, s.writer.limit = some d →
         let fault (m : List Host.Cell) : Host.Outcome State Fault Refusal := .next (refreshPins (settle (failed { s with
           now := max s.now d
           link := { s.link with mem := m, memFaults := bump 255 s.link.memFaults, lastWriter := .none } })))
         (s.writer.phase = .polling → exec .memoryFault s = fault s.link.mem ∧
           ∀ x k, exec (.ownAttemptFailure ⟨x, k⟩) s = .next (refreshPins (settle (failed { s with now := max s.now d })))) ∧
         (s.writer.phase = .awaiting → s.writer.earlier = none → exec .memoryFault s = fault s.link.mem) ∧
         (∀ a old, s.writer.phase = .awaiting → s.writer.earlier = some (a, old) →
           exec .memoryFault s = fault (memStore s.link.mem a old))) ∧
       (∀ a d, s.writer.phase = .writing a d → ∀ k,
         exec (.ownAttemptFailure ⟨.inAddress, k⟩) s = .next (refreshPins (settle (failed { s with
           link := { s.link with tracked := none } }))) ∧
         (∀ n, n < d.length → exec (.ownAttemptFailure ⟨.atData n, k⟩) s = .next (refreshPins (settle (failed { s with
           link := { s.link with tracked := some (pageWrap a n) } }))))) ∧
       (∀ a, s.writer.phase = .reading a → ∀ x k, exec (.ownAttemptFailure ⟨x, k⟩) s = .next (refreshPins (settle (failed
         { s with link := { s.link with tracked := none } })))))) ∧
  (∀ s : State,
       let dropped : State := { s with writer := { s.writer with dropped := bump 255 s.writer.dropped } }
       let faulted (y : State) : State := openIncident .accountFault { y with
         call := { y.call with reasons := { y.call.reasons with accountFault := true } }
         vault := { y.vault with held := y.vault.held.filter fun h => decide (h = .update) } }
       (∀ r : CallRecord, r.kind = .closed →
         itemWritten (.record r) s = { s with call := { s.call with lastFinal := r.seq } } ∧
         itemDropped (.record r) s =
           { faulted dropped with call := { (faulted dropped).call with lastFinal := r.seq } }) ∧
       (∀ r : CallRecord, r.kind = .rewrite →
         itemWritten (.record r) s = rewriteLeft { s with call := { s.call with lastFinal := r.seq } } ∧
         itemDropped (.record r) s =
           rewriteLeft { faulted dropped with call := { (faulted dropped).call with lastFinal := r.seq } }) ∧
       (∀ r : CallRecord, r.kind = .openRec ∨ r.kind = .checkpoint →
         itemWritten (.record r) s = s ∧ itemDropped (.record r) s = faulted dropped) ∧
       (itemWritten .vaultUpdate s = s ∧ itemDropped .vaultUpdate s = faulted dropped) ∧
       (∀ c b, itemWritten (.collection c b) s = s ∧ itemDropped (.collection c b) s = faulted dropped) ∧
       (∀ k v, itemWritten (.bankSwitch k v) s = s ∧ itemDropped (.bankSwitch k v) s =
         faulted { dropped with tariff := { s.tariff with unwritten := true } }) ∧
       (∀ n b, itemWritten (.incident n b) s = { s with inc := { s.inc with lastLog := n } } ∧
         itemDropped (.incident n b) s = { dropped with inc := { s.inc with lastLog := n } }) ∧
       (∀ b, itemWritten (.response b) s = { s with req := { s.req with st := .idle } } ∧
         itemDropped (.response b) s = { dropped with req := { s.req with st := .idle, lost := bump 255 s.req.lost } }) ∧
       (∀ f p, itemDropped (.read f p) s = deliver f p none dropped))

/-- A call record handed over. A record of the same call that waits in the queue is replaced, a checkpoint going ahead of
every waiting item, and any other record that replaces a checkpoint behind the last waiting record of an earlier call; a held
one is replaced where it is held; below the quota of 2 with none held, a checkpoint goes ahead of every waiting item and any
other record to the tail; and else it is held. A record of the same call that is the item in progress is not replaced (the
model's choice, log 31). A COLLECTION handed over joins the tail below the quota of 2 with none held, and is else held; with
one held already the two become one, whose counts and door-open time are the sums, and whose kind, epoch, mark of a box
exchanged in either, and value where the sum is above 99,999,999, the model chooses (log 31). When places are free, what a
producer holds joins the tail in the order in which it was held: call records, a held checkpoint going ahead of every waiting
item; vault items, none while ACCOUNT_FAULT stands (for a held VAULT_UPDATE the model's deduction, log 23); the response, or
else the next configuration read; the bank switch, or else the next read of a bank; and the next start-up read. A RESPONSE,
or a BANK_SWITCH of the bank in force, handed over joins the tail if its producer has none in the queue, and is else held, to
name the bank that is in force as it joins (the model's choice, log 31); while ACCOUNT_FAULT stands a BANK_SWITCH sets the
indicator-unwritten mark instead. The bytes of a response: code, tag and result, the detail, and 0 up to the check word. -/
def Obligations.RecordsJoinTheQueue : Prop :=
  (∀ (r : CallRecord) (s : State),
    let waiting := s.writer.waiting
    let withWaiting (l : List Item) : State := { s with writer := { s.writer with
      queue := (if s.writer.begun = true then s.writer.queue.take 1 else []) ++ l } }
    (waiting.any (isProvisional r.seq) = true → r.kind = .checkpoint →
      handRecord r s = withWaiting (.record r :: waiting.filter fun x => !isProvisional r.seq x)) ∧
    (∀ (pre post : List Item) (x : Item), waiting = pre ++ x :: post → (∀ y ∈ pre, isProvisional r.seq y = false) →
      isProvisional r.seq x = true → r.kind ≠ .checkpoint →
      isCheckpoint x = false ∨ post.any (isEarlier r.seq) = false →
      handRecord r s = withWaiting (pre ++ .record r :: post)) ∧
    (∀ (pre mid post : List Item) (x z : Item), waiting = pre ++ x :: (mid ++ z :: post) →
      (∀ y ∈ pre, isProvisional r.seq y = false) → isProvisional r.seq x = true → isCheckpoint x = true →
      isEarlier r.seq z = true → (∀ y ∈ post, isEarlier r.seq y = false) → r.kind ≠ .checkpoint →
      handRecord r s = withWaiting (pre ++ (mid ++ z :: .record r :: post))) ∧
    (waiting.any (isProvisional r.seq) = false →
      (∀ x ∈ s.call.heldRecords, x.seq = r.seq → handRecord r s = { s with call := { s.call with
        heldRecords := s.call.heldRecords.map fun y => if y.seq = r.seq then r else y } }) ∧
      ((∀ x ∈ s.call.heldRecords, x.seq ≠ r.seq) →
        (s.call.heldRecords = [] → itemsOf .call s.writer.queue < 2 →
          (r.kind = .checkpoint → handRecord r s = withWaiting (.record r :: waiting)) ∧
          (r.kind ≠ .checkpoint → handRecord r s =
            { s with writer := { s.writer with queue := s.writer.queue ++ [.record r] } })) ∧
        (s.call.heldRecords ≠ [] ∨ 2 ≤ itemsOf .call s.writer.queue →
          handRecord r s = { s with call := { s.call with heldRecords := s.call.heldRecords ++ [r] } })))) ∧
  (∀ (r : Collection) (b : PageB) (s : State),
    let held (l : List VaultHeld) : State := { s with vault := { s.vault with held := l } }
    let counts (x y : Counts) : Counts :=
      ⟨x.coins.zip (fun m n => min 4294967295 (m + n)) y.coins, min 4294967295 (x.stray + y.stray),
        min 99999999 (x.value + y.value)⟩
    (s.call.reasons.accountFault = true → handCollection r b s = s) ∧
    (s.call.reasons.accountFault = false →
      (itemsOf .vault s.writer.queue < 2 → s.vault.held = [] → handCollection r b s =
        { s with writer := { s.writer with queue := s.writer.queue ++ [.collection (pageCBody r) (pageBBody b)] } }) ∧
      (2 ≤ itemsOf .vault s.writer.queue ∨ s.vault.held ≠ [] →
        ((∀ x ∈ s.vault.held, x = .update) → handCollection r b s = held (s.vault.held ++ [.collection r b])) ∧
        (∀ (pre post : List VaultHeld) (x : Collection) (y : PageB), (∀ z ∈ pre, z = .update) →
          s.vault.held = pre ++ .collection x y :: post →
          handCollection r b s = held (pre ++ .collection { r with
            since := counts x.since r.since, doorOpen := min 65535 (x.doorOpen + r.doorOpen)
            exchanged := x.exchanged || r.exchanged } b :: post))))) ∧
  (∀ (s : State) (n : Nat),
    let queued (l : List Item) (y : State) : State := { y with writer := { y.writer with queue := s.writer.queue ++ l } }
    releaseHeld s = releaseStartRead (releaseHeldRating (releaseHeldRequest (releaseHeldVault (releaseHeldVault
      (releaseHeldRecord (releaseHeldRecord s)))))) ∧
    (n = min s.call.heldRecords.length (2 - itemsOf .call s.writer.queue) →
      (∀ r ∈ s.call.heldRecords.take n, r.kind ≠ .checkpoint) →
      releaseHeldRecord (releaseHeldRecord s) = queued ((s.call.heldRecords.take n).map .record)
        { s with call := { s.call with heldRecords := s.call.heldRecords.drop n } }) ∧
    (∀ r rest, s.call.heldRecords = r :: rest → r.kind = .checkpoint → itemsOf .call s.writer.queue < 2 →
      releaseHeldRecord s = { s with
        writer := { s.writer with
          queue := (if s.writer.begun = true then s.writer.queue.take 1 else []) ++ .record r :: s.writer.waiting }
        call := { s.call with heldRecords := rest } }) ∧
    (s.call.reasons.accountFault = true → releaseHeldVault s = s) ∧
    (s.call.reasons.accountFault = false → n = min s.vault.held.length (2 - itemsOf .vault s.writer.queue) →
      releaseHeldVault (releaseHeldVault s) = queued ((s.vault.held.take n).map fun h => match h with
          | .update => .vaultUpdate
          | .collection r b => .collection (pageCBody r) (pageBBody b))
        { s with vault := { s.vault with held := s.vault.held.drop n } }) ∧
    (1 ≤ itemsOf .request s.writer.queue → releaseHeldRequest s = s) ∧
    (itemsOf .request s.writer.queue = 0 →
      (∀ b, s.req.heldResponse = some b →
        releaseHeldRequest s = queued [.response b] { s with req := { s.req with heldResponse := none } }) ∧
      (∀ p, s.req.heldResponse = none → s.req.wantRead = some p →
        releaseHeldRequest s = queued [.read .config p] { s with req := { s.req with wantRead := none } }) ∧
      (s.req.heldResponse = none → s.req.wantRead = none → releaseHeldRequest s = s)) ∧
    (1 ≤ itemsOf .rating s.writer.queue → releaseHeldRating s = s) ∧
    (itemsOf .rating s.writer.queue = 0 →
      (s.tariff.heldSwitch = true → s.call.reasons.accountFault = false → releaseHeldRating s =
        queued [.bankSwitch s.tariff.bank s.tariff.version] { s with tariff := { s.tariff with heldSwitch := false } }) ∧
      (s.tariff.heldSwitch = true → s.call.reasons.accountFault = true → releaseHeldRating s =
        { s with tariff := { s.tariff with heldSwitch := false, unwritten := true } }) ∧
      (∀ p, s.tariff.heldSwitch = false → s.tariff.wantRead = some p →
        releaseHeldRating s = queued [.read .bank p] { s with tariff := { s.tariff with wantRead := none } }) ∧
      (s.tariff.heldSwitch = false → s.tariff.wantRead = none → releaseHeldRating s = s)) ∧
    (s.start.want = none → releaseStartRead s = s) ∧
    (∀ f p, s.start.want = some (f, p) →
      let room := itemsOf f.producer s.writer.queue < (match f with | .config | .bank => 1 | .vault | .ring => 2 | .log => 6)
      (room → releaseStartRead s = queued [.read f p] { s with start := { s.start with want := none } }) ∧
      (¬ room → releaseStartRead s = s))) ∧
  (∀ s : State,
    let queued (i : Item) : State := { s with writer := { s.writer with queue := s.writer.queue ++ [i] } }
    (∀ body : List Byte,
      (itemsOf .request s.writer.queue = 0 → handResponse body s = queued (.response body)) ∧
      (1 ≤ itemsOf .request s.writer.queue →
        handResponse body s = { s with req := { s.req with heldResponse := some body } })) ∧
    (s.call.reasons.accountFault = true → handBankSwitch s = { s with tariff := { s.tariff with unwritten := true } }) ∧
    (s.call.reasons.accountFault = false →
      (itemsOf .rating s.writer.queue = 0 → handBankSwitch s = queued (.bankSwitch s.tariff.bank s.tariff.version)) ∧
      (1 ≤ itemsOf .rating s.writer.queue →
        handBankSwitch s = { s with tariff := { s.tariff with heldSwitch := true } }))) ∧
  (∀ (code tag result : Nat) (detail : List Byte), detail.length ≤ 59 →
    responseBody code tag result detail =
      b8 code :: b8 tag :: b8 result :: (detail ++ List.replicate (59 - detail.length) (b8 0)))

end
end

