-- ==== Sys2Proof/Laws/State.lean ====
section
/-!
SUPPORT. One lemma for each field of the state under each block's update and under the time base, true by unfolding: what an
update of one block leaves alone. And the two cases of an expiry and of an event that reset holds off.
-/

namespace Sys2Proof.Machine

@[simp] theorem State.onClock_now (s : State) (f : Clock → Clock) : (s.onClock f).now = s.now := rfl
@[simp] theorem State.onClock_pfw (s : State) (f : Clock → Clock) : (s.onClock f).pfw = s.pfw := rfl
@[simp] theorem State.onClock_draws (s : State) (f : Clock → Clock) : (s.onClock f).draws = s.draws := rfl
@[simp] theorem State.onClock_pending (s : State) (f : Clock → Clock) : (s.onClock f).pending = s.pending := rfl
@[simp] theorem State.onClock_clock (s : State) (f : Clock → Clock) : (s.onClock f).clock = f s.clock := rfl
@[simp] theorem State.onClock_start (s : State) (f : Clock → Clock) : (s.onClock f).start = s.start := rfl
@[simp] theorem State.onClock_pins (s : State) (f : Clock → Clock) : (s.onClock f).pins = s.pins := rfl
@[simp] theorem State.onClock_coin (s : State) (f : Clock → Clock) : (s.onClock f).coin = s.coin := rfl
@[simp] theorem State.onClock_acct (s : State) (f : Clock → Clock) : (s.onClock f).acct = s.acct := rfl
@[simp] theorem State.onClock_rate (s : State) (f : Clock → Clock) : (s.onClock f).rate = s.rate := rfl
@[simp] theorem State.onClock_pipGen (s : State) (f : Clock → Clock) : (s.onClock f).pipGen = s.pipGen := rfl
@[simp] theorem State.onClock_tariff (s : State) (f : Clock → Clock) : (s.onClock f).tariff = s.tariff := rfl
@[simp] theorem State.onClock_num (s : State) (f : Clock → Clock) : (s.onClock f).num = s.num := rfl
@[simp] theorem State.onClock_call (s : State) (f : Clock → Clock) : (s.onClock f).call = s.call := rfl
@[simp] theorem State.onClock_line (s : State) (f : Clock → Clock) : (s.onClock f).line = s.line := rfl
@[simp] theorem State.onClock_vault (s : State) (f : Clock → Clock) : (s.onClock f).vault = s.vault := rfl
@[simp] theorem State.onClock_tamper (s : State) (f : Clock → Clock) : (s.onClock f).tamper = s.tamper := rfl
@[simp] theorem State.onClock_inc (s : State) (f : Clock → Clock) : (s.onClock f).inc = s.inc := rfl
@[simp] theorem State.onClock_dial (s : State) (f : Clock → Clock) : (s.onClock f).dial = s.dial := rfl
@[simp] theorem State.onClock_link (s : State) (f : Clock → Clock) : (s.onClock f).link = s.link := rfl
@[simp] theorem State.onClock_writer (s : State) (f : Clock → Clock) : (s.onClock f).writer = s.writer := rfl
@[simp] theorem State.onClock_req (s : State) (f : Clock → Clock) : (s.onClock f).req = s.req := rfl

@[simp] theorem State.onStart_now (s : State) (f : Startup → Startup) : (s.onStart f).now = s.now := rfl
@[simp] theorem State.onStart_pfw (s : State) (f : Startup → Startup) : (s.onStart f).pfw = s.pfw := rfl
@[simp] theorem State.onStart_draws (s : State) (f : Startup → Startup) : (s.onStart f).draws = s.draws := rfl
@[simp] theorem State.onStart_pending (s : State) (f : Startup → Startup) : (s.onStart f).pending = s.pending := rfl
@[simp] theorem State.onStart_clock (s : State) (f : Startup → Startup) : (s.onStart f).clock = s.clock := rfl
@[simp] theorem State.onStart_start (s : State) (f : Startup → Startup) : (s.onStart f).start = f s.start := rfl
@[simp] theorem State.onStart_pins (s : State) (f : Startup → Startup) : (s.onStart f).pins = s.pins := rfl
@[simp] theorem State.onStart_coin (s : State) (f : Startup → Startup) : (s.onStart f).coin = s.coin := rfl
@[simp] theorem State.onStart_acct (s : State) (f : Startup → Startup) : (s.onStart f).acct = s.acct := rfl
@[simp] theorem State.onStart_rate (s : State) (f : Startup → Startup) : (s.onStart f).rate = s.rate := rfl
@[simp] theorem State.onStart_pipGen (s : State) (f : Startup → Startup) : (s.onStart f).pipGen = s.pipGen := rfl
@[simp] theorem State.onStart_tariff (s : State) (f : Startup → Startup) : (s.onStart f).tariff = s.tariff := rfl
@[simp] theorem State.onStart_num (s : State) (f : Startup → Startup) : (s.onStart f).num = s.num := rfl
@[simp] theorem State.onStart_call (s : State) (f : Startup → Startup) : (s.onStart f).call = s.call := rfl
@[simp] theorem State.onStart_line (s : State) (f : Startup → Startup) : (s.onStart f).line = s.line := rfl
@[simp] theorem State.onStart_vault (s : State) (f : Startup → Startup) : (s.onStart f).vault = s.vault := rfl
@[simp] theorem State.onStart_tamper (s : State) (f : Startup → Startup) : (s.onStart f).tamper = s.tamper := rfl
@[simp] theorem State.onStart_inc (s : State) (f : Startup → Startup) : (s.onStart f).inc = s.inc := rfl
@[simp] theorem State.onStart_dial (s : State) (f : Startup → Startup) : (s.onStart f).dial = s.dial := rfl
@[simp] theorem State.onStart_link (s : State) (f : Startup → Startup) : (s.onStart f).link = s.link := rfl
@[simp] theorem State.onStart_writer (s : State) (f : Startup → Startup) : (s.onStart f).writer = s.writer := rfl
@[simp] theorem State.onStart_req (s : State) (f : Startup → Startup) : (s.onStart f).req = s.req := rfl

@[simp] theorem State.onPins_now (s : State) (f : Pins → Pins) : (s.onPins f).now = s.now := rfl
@[simp] theorem State.onPins_pfw (s : State) (f : Pins → Pins) : (s.onPins f).pfw = s.pfw := rfl
@[simp] theorem State.onPins_draws (s : State) (f : Pins → Pins) : (s.onPins f).draws = s.draws := rfl
@[simp] theorem State.onPins_pending (s : State) (f : Pins → Pins) : (s.onPins f).pending = s.pending := rfl
@[simp] theorem State.onPins_clock (s : State) (f : Pins → Pins) : (s.onPins f).clock = s.clock := rfl
@[simp] theorem State.onPins_start (s : State) (f : Pins → Pins) : (s.onPins f).start = s.start := rfl
@[simp] theorem State.onPins_pins (s : State) (f : Pins → Pins) : (s.onPins f).pins = f s.pins := rfl
@[simp] theorem State.onPins_coin (s : State) (f : Pins → Pins) : (s.onPins f).coin = s.coin := rfl
@[simp] theorem State.onPins_acct (s : State) (f : Pins → Pins) : (s.onPins f).acct = s.acct := rfl
@[simp] theorem State.onPins_rate (s : State) (f : Pins → Pins) : (s.onPins f).rate = s.rate := rfl
@[simp] theorem State.onPins_pipGen (s : State) (f : Pins → Pins) : (s.onPins f).pipGen = s.pipGen := rfl
@[simp] theorem State.onPins_tariff (s : State) (f : Pins → Pins) : (s.onPins f).tariff = s.tariff := rfl
@[simp] theorem State.onPins_num (s : State) (f : Pins → Pins) : (s.onPins f).num = s.num := rfl
@[simp] theorem State.onPins_call (s : State) (f : Pins → Pins) : (s.onPins f).call = s.call := rfl
@[simp] theorem State.onPins_line (s : State) (f : Pins → Pins) : (s.onPins f).line = s.line := rfl
@[simp] theorem State.onPins_vault (s : State) (f : Pins → Pins) : (s.onPins f).vault = s.vault := rfl
@[simp] theorem State.onPins_tamper (s : State) (f : Pins → Pins) : (s.onPins f).tamper = s.tamper := rfl
@[simp] theorem State.onPins_inc (s : State) (f : Pins → Pins) : (s.onPins f).inc = s.inc := rfl
@[simp] theorem State.onPins_dial (s : State) (f : Pins → Pins) : (s.onPins f).dial = s.dial := rfl
@[simp] theorem State.onPins_link (s : State) (f : Pins → Pins) : (s.onPins f).link = s.link := rfl
@[simp] theorem State.onPins_writer (s : State) (f : Pins → Pins) : (s.onPins f).writer = s.writer := rfl
@[simp] theorem State.onPins_req (s : State) (f : Pins → Pins) : (s.onPins f).req = s.req := rfl

@[simp] theorem State.onCoin_now (s : State) (f : CoinPath → CoinPath) : (s.onCoin f).now = s.now := rfl
@[simp] theorem State.onCoin_pfw (s : State) (f : CoinPath → CoinPath) : (s.onCoin f).pfw = s.pfw := rfl
@[simp] theorem State.onCoin_draws (s : State) (f : CoinPath → CoinPath) : (s.onCoin f).draws = s.draws := rfl
@[simp] theorem State.onCoin_pending (s : State) (f : CoinPath → CoinPath) : (s.onCoin f).pending = s.pending := rfl
@[simp] theorem State.onCoin_clock (s : State) (f : CoinPath → CoinPath) : (s.onCoin f).clock = s.clock := rfl
@[simp] theorem State.onCoin_start (s : State) (f : CoinPath → CoinPath) : (s.onCoin f).start = s.start := rfl
@[simp] theorem State.onCoin_pins (s : State) (f : CoinPath → CoinPath) : (s.onCoin f).pins = s.pins := rfl
@[simp] theorem State.onCoin_coin (s : State) (f : CoinPath → CoinPath) : (s.onCoin f).coin = f s.coin := rfl
@[simp] theorem State.onCoin_acct (s : State) (f : CoinPath → CoinPath) : (s.onCoin f).acct = s.acct := rfl
@[simp] theorem State.onCoin_rate (s : State) (f : CoinPath → CoinPath) : (s.onCoin f).rate = s.rate := rfl
@[simp] theorem State.onCoin_pipGen (s : State) (f : CoinPath → CoinPath) : (s.onCoin f).pipGen = s.pipGen := rfl
@[simp] theorem State.onCoin_tariff (s : State) (f : CoinPath → CoinPath) : (s.onCoin f).tariff = s.tariff := rfl
@[simp] theorem State.onCoin_num (s : State) (f : CoinPath → CoinPath) : (s.onCoin f).num = s.num := rfl
@[simp] theorem State.onCoin_call (s : State) (f : CoinPath → CoinPath) : (s.onCoin f).call = s.call := rfl
@[simp] theorem State.onCoin_line (s : State) (f : CoinPath → CoinPath) : (s.onCoin f).line = s.line := rfl
@[simp] theorem State.onCoin_vault (s : State) (f : CoinPath → CoinPath) : (s.onCoin f).vault = s.vault := rfl
@[simp] theorem State.onCoin_tamper (s : State) (f : CoinPath → CoinPath) : (s.onCoin f).tamper = s.tamper := rfl
@[simp] theorem State.onCoin_inc (s : State) (f : CoinPath → CoinPath) : (s.onCoin f).inc = s.inc := rfl
@[simp] theorem State.onCoin_dial (s : State) (f : CoinPath → CoinPath) : (s.onCoin f).dial = s.dial := rfl
@[simp] theorem State.onCoin_link (s : State) (f : CoinPath → CoinPath) : (s.onCoin f).link = s.link := rfl
@[simp] theorem State.onCoin_writer (s : State) (f : CoinPath → CoinPath) : (s.onCoin f).writer = s.writer := rfl
@[simp] theorem State.onCoin_req (s : State) (f : CoinPath → CoinPath) : (s.onCoin f).req = s.req := rfl

@[simp] theorem State.onAcct_now (s : State) (f : Account → Account) : (s.onAcct f).now = s.now := rfl
@[simp] theorem State.onAcct_pfw (s : State) (f : Account → Account) : (s.onAcct f).pfw = s.pfw := rfl
@[simp] theorem State.onAcct_draws (s : State) (f : Account → Account) : (s.onAcct f).draws = s.draws := rfl
@[simp] theorem State.onAcct_pending (s : State) (f : Account → Account) : (s.onAcct f).pending = s.pending := rfl
@[simp] theorem State.onAcct_clock (s : State) (f : Account → Account) : (s.onAcct f).clock = s.clock := rfl
@[simp] theorem State.onAcct_start (s : State) (f : Account → Account) : (s.onAcct f).start = s.start := rfl
@[simp] theorem State.onAcct_pins (s : State) (f : Account → Account) : (s.onAcct f).pins = s.pins := rfl
@[simp] theorem State.onAcct_coin (s : State) (f : Account → Account) : (s.onAcct f).coin = s.coin := rfl
@[simp] theorem State.onAcct_acct (s : State) (f : Account → Account) : (s.onAcct f).acct = f s.acct := rfl
@[simp] theorem State.onAcct_rate (s : State) (f : Account → Account) : (s.onAcct f).rate = s.rate := rfl
@[simp] theorem State.onAcct_pipGen (s : State) (f : Account → Account) : (s.onAcct f).pipGen = s.pipGen := rfl
@[simp] theorem State.onAcct_tariff (s : State) (f : Account → Account) : (s.onAcct f).tariff = s.tariff := rfl
@[simp] theorem State.onAcct_num (s : State) (f : Account → Account) : (s.onAcct f).num = s.num := rfl
@[simp] theorem State.onAcct_call (s : State) (f : Account → Account) : (s.onAcct f).call = s.call := rfl
@[simp] theorem State.onAcct_line (s : State) (f : Account → Account) : (s.onAcct f).line = s.line := rfl
@[simp] theorem State.onAcct_vault (s : State) (f : Account → Account) : (s.onAcct f).vault = s.vault := rfl
@[simp] theorem State.onAcct_tamper (s : State) (f : Account → Account) : (s.onAcct f).tamper = s.tamper := rfl
@[simp] theorem State.onAcct_inc (s : State) (f : Account → Account) : (s.onAcct f).inc = s.inc := rfl
@[simp] theorem State.onAcct_dial (s : State) (f : Account → Account) : (s.onAcct f).dial = s.dial := rfl
@[simp] theorem State.onAcct_link (s : State) (f : Account → Account) : (s.onAcct f).link = s.link := rfl
@[simp] theorem State.onAcct_writer (s : State) (f : Account → Account) : (s.onAcct f).writer = s.writer := rfl
@[simp] theorem State.onAcct_req (s : State) (f : Account → Account) : (s.onAcct f).req = s.req := rfl

@[simp] theorem State.onRate_now (s : State) (f : Rating → Rating) : (s.onRate f).now = s.now := rfl
@[simp] theorem State.onRate_pfw (s : State) (f : Rating → Rating) : (s.onRate f).pfw = s.pfw := rfl
@[simp] theorem State.onRate_draws (s : State) (f : Rating → Rating) : (s.onRate f).draws = s.draws := rfl
@[simp] theorem State.onRate_pending (s : State) (f : Rating → Rating) : (s.onRate f).pending = s.pending := rfl
@[simp] theorem State.onRate_clock (s : State) (f : Rating → Rating) : (s.onRate f).clock = s.clock := rfl
@[simp] theorem State.onRate_start (s : State) (f : Rating → Rating) : (s.onRate f).start = s.start := rfl
@[simp] theorem State.onRate_pins (s : State) (f : Rating → Rating) : (s.onRate f).pins = s.pins := rfl
@[simp] theorem State.onRate_coin (s : State) (f : Rating → Rating) : (s.onRate f).coin = s.coin := rfl
@[simp] theorem State.onRate_acct (s : State) (f : Rating → Rating) : (s.onRate f).acct = s.acct := rfl
@[simp] theorem State.onRate_rate (s : State) (f : Rating → Rating) : (s.onRate f).rate = f s.rate := rfl
@[simp] theorem State.onRate_pipGen (s : State) (f : Rating → Rating) : (s.onRate f).pipGen = s.pipGen := rfl
@[simp] theorem State.onRate_tariff (s : State) (f : Rating → Rating) : (s.onRate f).tariff = s.tariff := rfl
@[simp] theorem State.onRate_num (s : State) (f : Rating → Rating) : (s.onRate f).num = s.num := rfl
@[simp] theorem State.onRate_call (s : State) (f : Rating → Rating) : (s.onRate f).call = s.call := rfl
@[simp] theorem State.onRate_line (s : State) (f : Rating → Rating) : (s.onRate f).line = s.line := rfl
@[simp] theorem State.onRate_vault (s : State) (f : Rating → Rating) : (s.onRate f).vault = s.vault := rfl
@[simp] theorem State.onRate_tamper (s : State) (f : Rating → Rating) : (s.onRate f).tamper = s.tamper := rfl
@[simp] theorem State.onRate_inc (s : State) (f : Rating → Rating) : (s.onRate f).inc = s.inc := rfl
@[simp] theorem State.onRate_dial (s : State) (f : Rating → Rating) : (s.onRate f).dial = s.dial := rfl
@[simp] theorem State.onRate_link (s : State) (f : Rating → Rating) : (s.onRate f).link = s.link := rfl
@[simp] theorem State.onRate_writer (s : State) (f : Rating → Rating) : (s.onRate f).writer = s.writer := rfl
@[simp] theorem State.onRate_req (s : State) (f : Rating → Rating) : (s.onRate f).req = s.req := rfl

@[simp] theorem State.onPipGen_now (s : State) (f : PipGen → PipGen) : (s.onPipGen f).now = s.now := rfl
@[simp] theorem State.onPipGen_pfw (s : State) (f : PipGen → PipGen) : (s.onPipGen f).pfw = s.pfw := rfl
@[simp] theorem State.onPipGen_draws (s : State) (f : PipGen → PipGen) : (s.onPipGen f).draws = s.draws := rfl
@[simp] theorem State.onPipGen_pending (s : State) (f : PipGen → PipGen) : (s.onPipGen f).pending = s.pending := rfl
@[simp] theorem State.onPipGen_clock (s : State) (f : PipGen → PipGen) : (s.onPipGen f).clock = s.clock := rfl
@[simp] theorem State.onPipGen_start (s : State) (f : PipGen → PipGen) : (s.onPipGen f).start = s.start := rfl
@[simp] theorem State.onPipGen_pins (s : State) (f : PipGen → PipGen) : (s.onPipGen f).pins = s.pins := rfl
@[simp] theorem State.onPipGen_coin (s : State) (f : PipGen → PipGen) : (s.onPipGen f).coin = s.coin := rfl
@[simp] theorem State.onPipGen_acct (s : State) (f : PipGen → PipGen) : (s.onPipGen f).acct = s.acct := rfl
@[simp] theorem State.onPipGen_rate (s : State) (f : PipGen → PipGen) : (s.onPipGen f).rate = s.rate := rfl
@[simp] theorem State.onPipGen_pipGen (s : State) (f : PipGen → PipGen) : (s.onPipGen f).pipGen = f s.pipGen := rfl
@[simp] theorem State.onPipGen_tariff (s : State) (f : PipGen → PipGen) : (s.onPipGen f).tariff = s.tariff := rfl
@[simp] theorem State.onPipGen_num (s : State) (f : PipGen → PipGen) : (s.onPipGen f).num = s.num := rfl
@[simp] theorem State.onPipGen_call (s : State) (f : PipGen → PipGen) : (s.onPipGen f).call = s.call := rfl
@[simp] theorem State.onPipGen_line (s : State) (f : PipGen → PipGen) : (s.onPipGen f).line = s.line := rfl
@[simp] theorem State.onPipGen_vault (s : State) (f : PipGen → PipGen) : (s.onPipGen f).vault = s.vault := rfl
@[simp] theorem State.onPipGen_tamper (s : State) (f : PipGen → PipGen) : (s.onPipGen f).tamper = s.tamper := rfl
@[simp] theorem State.onPipGen_inc (s : State) (f : PipGen → PipGen) : (s.onPipGen f).inc = s.inc := rfl
@[simp] theorem State.onPipGen_dial (s : State) (f : PipGen → PipGen) : (s.onPipGen f).dial = s.dial := rfl
@[simp] theorem State.onPipGen_link (s : State) (f : PipGen → PipGen) : (s.onPipGen f).link = s.link := rfl
@[simp] theorem State.onPipGen_writer (s : State) (f : PipGen → PipGen) : (s.onPipGen f).writer = s.writer := rfl
@[simp] theorem State.onPipGen_req (s : State) (f : PipGen → PipGen) : (s.onPipGen f).req = s.req := rfl

@[simp] theorem State.onTariff_now (s : State) (f : Tariff → Tariff) : (s.onTariff f).now = s.now := rfl
@[simp] theorem State.onTariff_pfw (s : State) (f : Tariff → Tariff) : (s.onTariff f).pfw = s.pfw := rfl
@[simp] theorem State.onTariff_draws (s : State) (f : Tariff → Tariff) : (s.onTariff f).draws = s.draws := rfl
@[simp] theorem State.onTariff_pending (s : State) (f : Tariff → Tariff) : (s.onTariff f).pending = s.pending := rfl
@[simp] theorem State.onTariff_clock (s : State) (f : Tariff → Tariff) : (s.onTariff f).clock = s.clock := rfl
@[simp] theorem State.onTariff_start (s : State) (f : Tariff → Tariff) : (s.onTariff f).start = s.start := rfl
@[simp] theorem State.onTariff_pins (s : State) (f : Tariff → Tariff) : (s.onTariff f).pins = s.pins := rfl
@[simp] theorem State.onTariff_coin (s : State) (f : Tariff → Tariff) : (s.onTariff f).coin = s.coin := rfl
@[simp] theorem State.onTariff_acct (s : State) (f : Tariff → Tariff) : (s.onTariff f).acct = s.acct := rfl
@[simp] theorem State.onTariff_rate (s : State) (f : Tariff → Tariff) : (s.onTariff f).rate = s.rate := rfl
@[simp] theorem State.onTariff_pipGen (s : State) (f : Tariff → Tariff) : (s.onTariff f).pipGen = s.pipGen := rfl
@[simp] theorem State.onTariff_tariff (s : State) (f : Tariff → Tariff) : (s.onTariff f).tariff = f s.tariff := rfl
@[simp] theorem State.onTariff_num (s : State) (f : Tariff → Tariff) : (s.onTariff f).num = s.num := rfl
@[simp] theorem State.onTariff_call (s : State) (f : Tariff → Tariff) : (s.onTariff f).call = s.call := rfl
@[simp] theorem State.onTariff_line (s : State) (f : Tariff → Tariff) : (s.onTariff f).line = s.line := rfl
@[simp] theorem State.onTariff_vault (s : State) (f : Tariff → Tariff) : (s.onTariff f).vault = s.vault := rfl
@[simp] theorem State.onTariff_tamper (s : State) (f : Tariff → Tariff) : (s.onTariff f).tamper = s.tamper := rfl
@[simp] theorem State.onTariff_inc (s : State) (f : Tariff → Tariff) : (s.onTariff f).inc = s.inc := rfl
@[simp] theorem State.onTariff_dial (s : State) (f : Tariff → Tariff) : (s.onTariff f).dial = s.dial := rfl
@[simp] theorem State.onTariff_link (s : State) (f : Tariff → Tariff) : (s.onTariff f).link = s.link := rfl
@[simp] theorem State.onTariff_writer (s : State) (f : Tariff → Tariff) : (s.onTariff f).writer = s.writer := rfl
@[simp] theorem State.onTariff_req (s : State) (f : Tariff → Tariff) : (s.onTariff f).req = s.req := rfl

@[simp] theorem State.onNum_now (s : State) (f : NumberAnalyser → NumberAnalyser) : (s.onNum f).now = s.now := rfl
@[simp] theorem State.onNum_pfw (s : State) (f : NumberAnalyser → NumberAnalyser) : (s.onNum f).pfw = s.pfw := rfl
@[simp] theorem State.onNum_draws (s : State) (f : NumberAnalyser → NumberAnalyser) : (s.onNum f).draws = s.draws := rfl
@[simp] theorem State.onNum_pending (s : State) (f : NumberAnalyser → NumberAnalyser) : (s.onNum f).pending = s.pending := rfl
@[simp] theorem State.onNum_clock (s : State) (f : NumberAnalyser → NumberAnalyser) : (s.onNum f).clock = s.clock := rfl
@[simp] theorem State.onNum_start (s : State) (f : NumberAnalyser → NumberAnalyser) : (s.onNum f).start = s.start := rfl
@[simp] theorem State.onNum_pins (s : State) (f : NumberAnalyser → NumberAnalyser) : (s.onNum f).pins = s.pins := rfl
@[simp] theorem State.onNum_coin (s : State) (f : NumberAnalyser → NumberAnalyser) : (s.onNum f).coin = s.coin := rfl
@[simp] theorem State.onNum_acct (s : State) (f : NumberAnalyser → NumberAnalyser) : (s.onNum f).acct = s.acct := rfl
@[simp] theorem State.onNum_rate (s : State) (f : NumberAnalyser → NumberAnalyser) : (s.onNum f).rate = s.rate := rfl
@[simp] theorem State.onNum_pipGen (s : State) (f : NumberAnalyser → NumberAnalyser) : (s.onNum f).pipGen = s.pipGen := rfl
@[simp] theorem State.onNum_tariff (s : State) (f : NumberAnalyser → NumberAnalyser) : (s.onNum f).tariff = s.tariff := rfl
@[simp] theorem State.onNum_num (s : State) (f : NumberAnalyser → NumberAnalyser) : (s.onNum f).num = f s.num := rfl
@[simp] theorem State.onNum_call (s : State) (f : NumberAnalyser → NumberAnalyser) : (s.onNum f).call = s.call := rfl
@[simp] theorem State.onNum_line (s : State) (f : NumberAnalyser → NumberAnalyser) : (s.onNum f).line = s.line := rfl
@[simp] theorem State.onNum_vault (s : State) (f : NumberAnalyser → NumberAnalyser) : (s.onNum f).vault = s.vault := rfl
@[simp] theorem State.onNum_tamper (s : State) (f : NumberAnalyser → NumberAnalyser) : (s.onNum f).tamper = s.tamper := rfl
@[simp] theorem State.onNum_inc (s : State) (f : NumberAnalyser → NumberAnalyser) : (s.onNum f).inc = s.inc := rfl
@[simp] theorem State.onNum_dial (s : State) (f : NumberAnalyser → NumberAnalyser) : (s.onNum f).dial = s.dial := rfl
@[simp] theorem State.onNum_link (s : State) (f : NumberAnalyser → NumberAnalyser) : (s.onNum f).link = s.link := rfl
@[simp] theorem State.onNum_writer (s : State) (f : NumberAnalyser → NumberAnalyser) : (s.onNum f).writer = s.writer := rfl
@[simp] theorem State.onNum_req (s : State) (f : NumberAnalyser → NumberAnalyser) : (s.onNum f).req = s.req := rfl

@[simp] theorem State.onCall_now (s : State) (f : CallControl → CallControl) : (s.onCall f).now = s.now := rfl
@[simp] theorem State.onCall_pfw (s : State) (f : CallControl → CallControl) : (s.onCall f).pfw = s.pfw := rfl
@[simp] theorem State.onCall_draws (s : State) (f : CallControl → CallControl) : (s.onCall f).draws = s.draws := rfl
@[simp] theorem State.onCall_pending (s : State) (f : CallControl → CallControl) : (s.onCall f).pending = s.pending := rfl
@[simp] theorem State.onCall_clock (s : State) (f : CallControl → CallControl) : (s.onCall f).clock = s.clock := rfl
@[simp] theorem State.onCall_start (s : State) (f : CallControl → CallControl) : (s.onCall f).start = s.start := rfl
@[simp] theorem State.onCall_pins (s : State) (f : CallControl → CallControl) : (s.onCall f).pins = s.pins := rfl
@[simp] theorem State.onCall_coin (s : State) (f : CallControl → CallControl) : (s.onCall f).coin = s.coin := rfl
@[simp] theorem State.onCall_acct (s : State) (f : CallControl → CallControl) : (s.onCall f).acct = s.acct := rfl
@[simp] theorem State.onCall_rate (s : State) (f : CallControl → CallControl) : (s.onCall f).rate = s.rate := rfl
@[simp] theorem State.onCall_pipGen (s : State) (f : CallControl → CallControl) : (s.onCall f).pipGen = s.pipGen := rfl
@[simp] theorem State.onCall_tariff (s : State) (f : CallControl → CallControl) : (s.onCall f).tariff = s.tariff := rfl
@[simp] theorem State.onCall_num (s : State) (f : CallControl → CallControl) : (s.onCall f).num = s.num := rfl
@[simp] theorem State.onCall_call (s : State) (f : CallControl → CallControl) : (s.onCall f).call = f s.call := rfl
@[simp] theorem State.onCall_line (s : State) (f : CallControl → CallControl) : (s.onCall f).line = s.line := rfl
@[simp] theorem State.onCall_vault (s : State) (f : CallControl → CallControl) : (s.onCall f).vault = s.vault := rfl
@[simp] theorem State.onCall_tamper (s : State) (f : CallControl → CallControl) : (s.onCall f).tamper = s.tamper := rfl
@[simp] theorem State.onCall_inc (s : State) (f : CallControl → CallControl) : (s.onCall f).inc = s.inc := rfl
@[simp] theorem State.onCall_dial (s : State) (f : CallControl → CallControl) : (s.onCall f).dial = s.dial := rfl
@[simp] theorem State.onCall_link (s : State) (f : CallControl → CallControl) : (s.onCall f).link = s.link := rfl
@[simp] theorem State.onCall_writer (s : State) (f : CallControl → CallControl) : (s.onCall f).writer = s.writer := rfl
@[simp] theorem State.onCall_req (s : State) (f : CallControl → CallControl) : (s.onCall f).req = s.req := rfl

@[simp] theorem State.onLine_now (s : State) (f : Line → Line) : (s.onLine f).now = s.now := rfl
@[simp] theorem State.onLine_pfw (s : State) (f : Line → Line) : (s.onLine f).pfw = s.pfw := rfl
@[simp] theorem State.onLine_draws (s : State) (f : Line → Line) : (s.onLine f).draws = s.draws := rfl
@[simp] theorem State.onLine_pending (s : State) (f : Line → Line) : (s.onLine f).pending = s.pending := rfl
@[simp] theorem State.onLine_clock (s : State) (f : Line → Line) : (s.onLine f).clock = s.clock := rfl
@[simp] theorem State.onLine_start (s : State) (f : Line → Line) : (s.onLine f).start = s.start := rfl
@[simp] theorem State.onLine_pins (s : State) (f : Line → Line) : (s.onLine f).pins = s.pins := rfl
@[simp] theorem State.onLine_coin (s : State) (f : Line → Line) : (s.onLine f).coin = s.coin := rfl
@[simp] theorem State.onLine_acct (s : State) (f : Line → Line) : (s.onLine f).acct = s.acct := rfl
@[simp] theorem State.onLine_rate (s : State) (f : Line → Line) : (s.onLine f).rate = s.rate := rfl
@[simp] theorem State.onLine_pipGen (s : State) (f : Line → Line) : (s.onLine f).pipGen = s.pipGen := rfl
@[simp] theorem State.onLine_tariff (s : State) (f : Line → Line) : (s.onLine f).tariff = s.tariff := rfl
@[simp] theorem State.onLine_num (s : State) (f : Line → Line) : (s.onLine f).num = s.num := rfl
@[simp] theorem State.onLine_call (s : State) (f : Line → Line) : (s.onLine f).call = s.call := rfl
@[simp] theorem State.onLine_line (s : State) (f : Line → Line) : (s.onLine f).line = f s.line := rfl
@[simp] theorem State.onLine_vault (s : State) (f : Line → Line) : (s.onLine f).vault = s.vault := rfl
@[simp] theorem State.onLine_tamper (s : State) (f : Line → Line) : (s.onLine f).tamper = s.tamper := rfl
@[simp] theorem State.onLine_inc (s : State) (f : Line → Line) : (s.onLine f).inc = s.inc := rfl
@[simp] theorem State.onLine_dial (s : State) (f : Line → Line) : (s.onLine f).dial = s.dial := rfl
@[simp] theorem State.onLine_link (s : State) (f : Line → Line) : (s.onLine f).link = s.link := rfl
@[simp] theorem State.onLine_writer (s : State) (f : Line → Line) : (s.onLine f).writer = s.writer := rfl
@[simp] theorem State.onLine_req (s : State) (f : Line → Line) : (s.onLine f).req = s.req := rfl

@[simp] theorem State.onVault_now (s : State) (f : Vault → Vault) : (s.onVault f).now = s.now := rfl
@[simp] theorem State.onVault_pfw (s : State) (f : Vault → Vault) : (s.onVault f).pfw = s.pfw := rfl
@[simp] theorem State.onVault_draws (s : State) (f : Vault → Vault) : (s.onVault f).draws = s.draws := rfl
@[simp] theorem State.onVault_pending (s : State) (f : Vault → Vault) : (s.onVault f).pending = s.pending := rfl
@[simp] theorem State.onVault_clock (s : State) (f : Vault → Vault) : (s.onVault f).clock = s.clock := rfl
@[simp] theorem State.onVault_start (s : State) (f : Vault → Vault) : (s.onVault f).start = s.start := rfl
@[simp] theorem State.onVault_pins (s : State) (f : Vault → Vault) : (s.onVault f).pins = s.pins := rfl
@[simp] theorem State.onVault_coin (s : State) (f : Vault → Vault) : (s.onVault f).coin = s.coin := rfl
@[simp] theorem State.onVault_acct (s : State) (f : Vault → Vault) : (s.onVault f).acct = s.acct := rfl
@[simp] theorem State.onVault_rate (s : State) (f : Vault → Vault) : (s.onVault f).rate = s.rate := rfl
@[simp] theorem State.onVault_pipGen (s : State) (f : Vault → Vault) : (s.onVault f).pipGen = s.pipGen := rfl
@[simp] theorem State.onVault_tariff (s : State) (f : Vault → Vault) : (s.onVault f).tariff = s.tariff := rfl
@[simp] theorem State.onVault_num (s : State) (f : Vault → Vault) : (s.onVault f).num = s.num := rfl
@[simp] theorem State.onVault_call (s : State) (f : Vault → Vault) : (s.onVault f).call = s.call := rfl
@[simp] theorem State.onVault_line (s : State) (f : Vault → Vault) : (s.onVault f).line = s.line := rfl
@[simp] theorem State.onVault_vault (s : State) (f : Vault → Vault) : (s.onVault f).vault = f s.vault := rfl
@[simp] theorem State.onVault_tamper (s : State) (f : Vault → Vault) : (s.onVault f).tamper = s.tamper := rfl
@[simp] theorem State.onVault_inc (s : State) (f : Vault → Vault) : (s.onVault f).inc = s.inc := rfl
@[simp] theorem State.onVault_dial (s : State) (f : Vault → Vault) : (s.onVault f).dial = s.dial := rfl
@[simp] theorem State.onVault_link (s : State) (f : Vault → Vault) : (s.onVault f).link = s.link := rfl
@[simp] theorem State.onVault_writer (s : State) (f : Vault → Vault) : (s.onVault f).writer = s.writer := rfl
@[simp] theorem State.onVault_req (s : State) (f : Vault → Vault) : (s.onVault f).req = s.req := rfl

@[simp] theorem State.onTamper_now (s : State) (f : Tamper → Tamper) : (s.onTamper f).now = s.now := rfl
@[simp] theorem State.onTamper_pfw (s : State) (f : Tamper → Tamper) : (s.onTamper f).pfw = s.pfw := rfl
@[simp] theorem State.onTamper_draws (s : State) (f : Tamper → Tamper) : (s.onTamper f).draws = s.draws := rfl
@[simp] theorem State.onTamper_pending (s : State) (f : Tamper → Tamper) : (s.onTamper f).pending = s.pending := rfl
@[simp] theorem State.onTamper_clock (s : State) (f : Tamper → Tamper) : (s.onTamper f).clock = s.clock := rfl
@[simp] theorem State.onTamper_start (s : State) (f : Tamper → Tamper) : (s.onTamper f).start = s.start := rfl
@[simp] theorem State.onTamper_pins (s : State) (f : Tamper → Tamper) : (s.onTamper f).pins = s.pins := rfl
@[simp] theorem State.onTamper_coin (s : State) (f : Tamper → Tamper) : (s.onTamper f).coin = s.coin := rfl
@[simp] theorem State.onTamper_acct (s : State) (f : Tamper → Tamper) : (s.onTamper f).acct = s.acct := rfl
@[simp] theorem State.onTamper_rate (s : State) (f : Tamper → Tamper) : (s.onTamper f).rate = s.rate := rfl
@[simp] theorem State.onTamper_pipGen (s : State) (f : Tamper → Tamper) : (s.onTamper f).pipGen = s.pipGen := rfl
@[simp] theorem State.onTamper_tariff (s : State) (f : Tamper → Tamper) : (s.onTamper f).tariff = s.tariff := rfl
@[simp] theorem State.onTamper_num (s : State) (f : Tamper → Tamper) : (s.onTamper f).num = s.num := rfl
@[simp] theorem State.onTamper_call (s : State) (f : Tamper → Tamper) : (s.onTamper f).call = s.call := rfl
@[simp] theorem State.onTamper_line (s : State) (f : Tamper → Tamper) : (s.onTamper f).line = s.line := rfl
@[simp] theorem State.onTamper_vault (s : State) (f : Tamper → Tamper) : (s.onTamper f).vault = s.vault := rfl
@[simp] theorem State.onTamper_tamper (s : State) (f : Tamper → Tamper) : (s.onTamper f).tamper = f s.tamper := rfl
@[simp] theorem State.onTamper_inc (s : State) (f : Tamper → Tamper) : (s.onTamper f).inc = s.inc := rfl
@[simp] theorem State.onTamper_dial (s : State) (f : Tamper → Tamper) : (s.onTamper f).dial = s.dial := rfl
@[simp] theorem State.onTamper_link (s : State) (f : Tamper → Tamper) : (s.onTamper f).link = s.link := rfl
@[simp] theorem State.onTamper_writer (s : State) (f : Tamper → Tamper) : (s.onTamper f).writer = s.writer := rfl
@[simp] theorem State.onTamper_req (s : State) (f : Tamper → Tamper) : (s.onTamper f).req = s.req := rfl

@[simp] theorem State.onInc_now (s : State) (f : Incidents → Incidents) : (s.onInc f).now = s.now := rfl
@[simp] theorem State.onInc_pfw (s : State) (f : Incidents → Incidents) : (s.onInc f).pfw = s.pfw := rfl
@[simp] theorem State.onInc_draws (s : State) (f : Incidents → Incidents) : (s.onInc f).draws = s.draws := rfl
@[simp] theorem State.onInc_pending (s : State) (f : Incidents → Incidents) : (s.onInc f).pending = s.pending := rfl
@[simp] theorem State.onInc_clock (s : State) (f : Incidents → Incidents) : (s.onInc f).clock = s.clock := rfl
@[simp] theorem State.onInc_start (s : State) (f : Incidents → Incidents) : (s.onInc f).start = s.start := rfl
@[simp] theorem State.onInc_pins (s : State) (f : Incidents → Incidents) : (s.onInc f).pins = s.pins := rfl
@[simp] theorem State.onInc_coin (s : State) (f : Incidents → Incidents) : (s.onInc f).coin = s.coin := rfl
@[simp] theorem State.onInc_acct (s : State) (f : Incidents → Incidents) : (s.onInc f).acct = s.acct := rfl
@[simp] theorem State.onInc_rate (s : State) (f : Incidents → Incidents) : (s.onInc f).rate = s.rate := rfl
@[simp] theorem State.onInc_pipGen (s : State) (f : Incidents → Incidents) : (s.onInc f).pipGen = s.pipGen := rfl
@[simp] theorem State.onInc_tariff (s : State) (f : Incidents → Incidents) : (s.onInc f).tariff = s.tariff := rfl
@[simp] theorem State.onInc_num (s : State) (f : Incidents → Incidents) : (s.onInc f).num = s.num := rfl
@[simp] theorem State.onInc_call (s : State) (f : Incidents → Incidents) : (s.onInc f).call = s.call := rfl
@[simp] theorem State.onInc_line (s : State) (f : Incidents → Incidents) : (s.onInc f).line = s.line := rfl
@[simp] theorem State.onInc_vault (s : State) (f : Incidents → Incidents) : (s.onInc f).vault = s.vault := rfl
@[simp] theorem State.onInc_tamper (s : State) (f : Incidents → Incidents) : (s.onInc f).tamper = s.tamper := rfl
@[simp] theorem State.onInc_inc (s : State) (f : Incidents → Incidents) : (s.onInc f).inc = f s.inc := rfl
@[simp] theorem State.onInc_dial (s : State) (f : Incidents → Incidents) : (s.onInc f).dial = s.dial := rfl
@[simp] theorem State.onInc_link (s : State) (f : Incidents → Incidents) : (s.onInc f).link = s.link := rfl
@[simp] theorem State.onInc_writer (s : State) (f : Incidents → Incidents) : (s.onInc f).writer = s.writer := rfl
@[simp] theorem State.onInc_req (s : State) (f : Incidents → Incidents) : (s.onInc f).req = s.req := rfl

@[simp] theorem State.onDial_now (s : State) (f : Dialler → Dialler) : (s.onDial f).now = s.now := rfl
@[simp] theorem State.onDial_pfw (s : State) (f : Dialler → Dialler) : (s.onDial f).pfw = s.pfw := rfl
@[simp] theorem State.onDial_draws (s : State) (f : Dialler → Dialler) : (s.onDial f).draws = s.draws := rfl
@[simp] theorem State.onDial_pending (s : State) (f : Dialler → Dialler) : (s.onDial f).pending = s.pending := rfl
@[simp] theorem State.onDial_clock (s : State) (f : Dialler → Dialler) : (s.onDial f).clock = s.clock := rfl
@[simp] theorem State.onDial_start (s : State) (f : Dialler → Dialler) : (s.onDial f).start = s.start := rfl
@[simp] theorem State.onDial_pins (s : State) (f : Dialler → Dialler) : (s.onDial f).pins = s.pins := rfl
@[simp] theorem State.onDial_coin (s : State) (f : Dialler → Dialler) : (s.onDial f).coin = s.coin := rfl
@[simp] theorem State.onDial_acct (s : State) (f : Dialler → Dialler) : (s.onDial f).acct = s.acct := rfl
@[simp] theorem State.onDial_rate (s : State) (f : Dialler → Dialler) : (s.onDial f).rate = s.rate := rfl
@[simp] theorem State.onDial_pipGen (s : State) (f : Dialler → Dialler) : (s.onDial f).pipGen = s.pipGen := rfl
@[simp] theorem State.onDial_tariff (s : State) (f : Dialler → Dialler) : (s.onDial f).tariff = s.tariff := rfl
@[simp] theorem State.onDial_num (s : State) (f : Dialler → Dialler) : (s.onDial f).num = s.num := rfl
@[simp] theorem State.onDial_call (s : State) (f : Dialler → Dialler) : (s.onDial f).call = s.call := rfl
@[simp] theorem State.onDial_line (s : State) (f : Dialler → Dialler) : (s.onDial f).line = s.line := rfl
@[simp] theorem State.onDial_vault (s : State) (f : Dialler → Dialler) : (s.onDial f).vault = s.vault := rfl
@[simp] theorem State.onDial_tamper (s : State) (f : Dialler → Dialler) : (s.onDial f).tamper = s.tamper := rfl
@[simp] theorem State.onDial_inc (s : State) (f : Dialler → Dialler) : (s.onDial f).inc = s.inc := rfl
@[simp] theorem State.onDial_dial (s : State) (f : Dialler → Dialler) : (s.onDial f).dial = f s.dial := rfl
@[simp] theorem State.onDial_link (s : State) (f : Dialler → Dialler) : (s.onDial f).link = s.link := rfl
@[simp] theorem State.onDial_writer (s : State) (f : Dialler → Dialler) : (s.onDial f).writer = s.writer := rfl
@[simp] theorem State.onDial_req (s : State) (f : Dialler → Dialler) : (s.onDial f).req = s.req := rfl

@[simp] theorem State.onLink_now (s : State) (f : Link → Link) : (s.onLink f).now = s.now := rfl
@[simp] theorem State.onLink_pfw (s : State) (f : Link → Link) : (s.onLink f).pfw = s.pfw := rfl
@[simp] theorem State.onLink_draws (s : State) (f : Link → Link) : (s.onLink f).draws = s.draws := rfl
@[simp] theorem State.onLink_pending (s : State) (f : Link → Link) : (s.onLink f).pending = s.pending := rfl
@[simp] theorem State.onLink_clock (s : State) (f : Link → Link) : (s.onLink f).clock = s.clock := rfl
@[simp] theorem State.onLink_start (s : State) (f : Link → Link) : (s.onLink f).start = s.start := rfl
@[simp] theorem State.onLink_pins (s : State) (f : Link → Link) : (s.onLink f).pins = s.pins := rfl
@[simp] theorem State.onLink_coin (s : State) (f : Link → Link) : (s.onLink f).coin = s.coin := rfl
@[simp] theorem State.onLink_acct (s : State) (f : Link → Link) : (s.onLink f).acct = s.acct := rfl
@[simp] theorem State.onLink_rate (s : State) (f : Link → Link) : (s.onLink f).rate = s.rate := rfl
@[simp] theorem State.onLink_pipGen (s : State) (f : Link → Link) : (s.onLink f).pipGen = s.pipGen := rfl
@[simp] theorem State.onLink_tariff (s : State) (f : Link → Link) : (s.onLink f).tariff = s.tariff := rfl
@[simp] theorem State.onLink_num (s : State) (f : Link → Link) : (s.onLink f).num = s.num := rfl
@[simp] theorem State.onLink_call (s : State) (f : Link → Link) : (s.onLink f).call = s.call := rfl
@[simp] theorem State.onLink_line (s : State) (f : Link → Link) : (s.onLink f).line = s.line := rfl
@[simp] theorem State.onLink_vault (s : State) (f : Link → Link) : (s.onLink f).vault = s.vault := rfl
@[simp] theorem State.onLink_tamper (s : State) (f : Link → Link) : (s.onLink f).tamper = s.tamper := rfl
@[simp] theorem State.onLink_inc (s : State) (f : Link → Link) : (s.onLink f).inc = s.inc := rfl
@[simp] theorem State.onLink_dial (s : State) (f : Link → Link) : (s.onLink f).dial = s.dial := rfl
@[simp] theorem State.onLink_link (s : State) (f : Link → Link) : (s.onLink f).link = f s.link := rfl
@[simp] theorem State.onLink_writer (s : State) (f : Link → Link) : (s.onLink f).writer = s.writer := rfl
@[simp] theorem State.onLink_req (s : State) (f : Link → Link) : (s.onLink f).req = s.req := rfl

@[simp] theorem State.onWriter_now (s : State) (f : RecordWriter → RecordWriter) : (s.onWriter f).now = s.now := rfl
@[simp] theorem State.onWriter_pfw (s : State) (f : RecordWriter → RecordWriter) : (s.onWriter f).pfw = s.pfw := rfl
@[simp] theorem State.onWriter_draws (s : State) (f : RecordWriter → RecordWriter) : (s.onWriter f).draws = s.draws := rfl
@[simp] theorem State.onWriter_pending (s : State) (f : RecordWriter → RecordWriter) : (s.onWriter f).pending = s.pending := rfl
@[simp] theorem State.onWriter_clock (s : State) (f : RecordWriter → RecordWriter) : (s.onWriter f).clock = s.clock := rfl
@[simp] theorem State.onWriter_start (s : State) (f : RecordWriter → RecordWriter) : (s.onWriter f).start = s.start := rfl
@[simp] theorem State.onWriter_pins (s : State) (f : RecordWriter → RecordWriter) : (s.onWriter f).pins = s.pins := rfl
@[simp] theorem State.onWriter_coin (s : State) (f : RecordWriter → RecordWriter) : (s.onWriter f).coin = s.coin := rfl
@[simp] theorem State.onWriter_acct (s : State) (f : RecordWriter → RecordWriter) : (s.onWriter f).acct = s.acct := rfl
@[simp] theorem State.onWriter_rate (s : State) (f : RecordWriter → RecordWriter) : (s.onWriter f).rate = s.rate := rfl
@[simp] theorem State.onWriter_pipGen (s : State) (f : RecordWriter → RecordWriter) : (s.onWriter f).pipGen = s.pipGen := rfl
@[simp] theorem State.onWriter_tariff (s : State) (f : RecordWriter → RecordWriter) : (s.onWriter f).tariff = s.tariff := rfl
@[simp] theorem State.onWriter_num (s : State) (f : RecordWriter → RecordWriter) : (s.onWriter f).num = s.num := rfl
@[simp] theorem State.onWriter_call (s : State) (f : RecordWriter → RecordWriter) : (s.onWriter f).call = s.call := rfl
@[simp] theorem State.onWriter_line (s : State) (f : RecordWriter → RecordWriter) : (s.onWriter f).line = s.line := rfl
@[simp] theorem State.onWriter_vault (s : State) (f : RecordWriter → RecordWriter) : (s.onWriter f).vault = s.vault := rfl
@[simp] theorem State.onWriter_tamper (s : State) (f : RecordWriter → RecordWriter) : (s.onWriter f).tamper = s.tamper := rfl
@[simp] theorem State.onWriter_inc (s : State) (f : RecordWriter → RecordWriter) : (s.onWriter f).inc = s.inc := rfl
@[simp] theorem State.onWriter_dial (s : State) (f : RecordWriter → RecordWriter) : (s.onWriter f).dial = s.dial := rfl
@[simp] theorem State.onWriter_link (s : State) (f : RecordWriter → RecordWriter) : (s.onWriter f).link = s.link := rfl
@[simp] theorem State.onWriter_writer (s : State) (f : RecordWriter → RecordWriter) : (s.onWriter f).writer = f s.writer := rfl
@[simp] theorem State.onWriter_req (s : State) (f : RecordWriter → RecordWriter) : (s.onWriter f).req = s.req := rfl

@[simp] theorem State.onReq_now (s : State) (f : Requests → Requests) : (s.onReq f).now = s.now := rfl
@[simp] theorem State.onReq_pfw (s : State) (f : Requests → Requests) : (s.onReq f).pfw = s.pfw := rfl
@[simp] theorem State.onReq_draws (s : State) (f : Requests → Requests) : (s.onReq f).draws = s.draws := rfl
@[simp] theorem State.onReq_pending (s : State) (f : Requests → Requests) : (s.onReq f).pending = s.pending := rfl
@[simp] theorem State.onReq_clock (s : State) (f : Requests → Requests) : (s.onReq f).clock = s.clock := rfl
@[simp] theorem State.onReq_start (s : State) (f : Requests → Requests) : (s.onReq f).start = s.start := rfl
@[simp] theorem State.onReq_pins (s : State) (f : Requests → Requests) : (s.onReq f).pins = s.pins := rfl
@[simp] theorem State.onReq_coin (s : State) (f : Requests → Requests) : (s.onReq f).coin = s.coin := rfl
@[simp] theorem State.onReq_acct (s : State) (f : Requests → Requests) : (s.onReq f).acct = s.acct := rfl
@[simp] theorem State.onReq_rate (s : State) (f : Requests → Requests) : (s.onReq f).rate = s.rate := rfl
@[simp] theorem State.onReq_pipGen (s : State) (f : Requests → Requests) : (s.onReq f).pipGen = s.pipGen := rfl
@[simp] theorem State.onReq_tariff (s : State) (f : Requests → Requests) : (s.onReq f).tariff = s.tariff := rfl
@[simp] theorem State.onReq_num (s : State) (f : Requests → Requests) : (s.onReq f).num = s.num := rfl
@[simp] theorem State.onReq_call (s : State) (f : Requests → Requests) : (s.onReq f).call = s.call := rfl
@[simp] theorem State.onReq_line (s : State) (f : Requests → Requests) : (s.onReq f).line = s.line := rfl
@[simp] theorem State.onReq_vault (s : State) (f : Requests → Requests) : (s.onReq f).vault = s.vault := rfl
@[simp] theorem State.onReq_tamper (s : State) (f : Requests → Requests) : (s.onReq f).tamper = s.tamper := rfl
@[simp] theorem State.onReq_inc (s : State) (f : Requests → Requests) : (s.onReq f).inc = s.inc := rfl
@[simp] theorem State.onReq_dial (s : State) (f : Requests → Requests) : (s.onReq f).dial = s.dial := rfl
@[simp] theorem State.onReq_link (s : State) (f : Requests → Requests) : (s.onReq f).link = s.link := rfl
@[simp] theorem State.onReq_writer (s : State) (f : Requests → Requests) : (s.onReq f).writer = s.writer := rfl
@[simp] theorem State.onReq_req (s : State) (f : Requests → Requests) : (s.onReq f).req = f s.req := rfl

@[simp] theorem State.reach_now (s : State) (t : Nat) : (s.reach t).now = max s.now t := rfl
@[simp] theorem State.reach_pfw (s : State) (t : Nat) : (s.reach t).pfw = s.pfw := rfl
@[simp] theorem State.reach_draws (s : State) (t : Nat) : (s.reach t).draws = s.draws := rfl
@[simp] theorem State.reach_pending (s : State) (t : Nat) : (s.reach t).pending = s.pending := rfl
@[simp] theorem State.reach_clock (s : State) (t : Nat) : (s.reach t).clock = s.clock := rfl
@[simp] theorem State.reach_start (s : State) (t : Nat) : (s.reach t).start = s.start := rfl
@[simp] theorem State.reach_pins (s : State) (t : Nat) : (s.reach t).pins = s.pins := rfl
@[simp] theorem State.reach_coin (s : State) (t : Nat) : (s.reach t).coin = s.coin := rfl
@[simp] theorem State.reach_acct (s : State) (t : Nat) : (s.reach t).acct = s.acct := rfl
@[simp] theorem State.reach_rate (s : State) (t : Nat) : (s.reach t).rate = s.rate := rfl
@[simp] theorem State.reach_pipGen (s : State) (t : Nat) : (s.reach t).pipGen = s.pipGen := rfl
@[simp] theorem State.reach_tariff (s : State) (t : Nat) : (s.reach t).tariff = s.tariff := rfl
@[simp] theorem State.reach_num (s : State) (t : Nat) : (s.reach t).num = s.num := rfl
@[simp] theorem State.reach_call (s : State) (t : Nat) : (s.reach t).call = s.call := rfl
@[simp] theorem State.reach_line (s : State) (t : Nat) : (s.reach t).line = s.line := rfl
@[simp] theorem State.reach_vault (s : State) (t : Nat) : (s.reach t).vault = s.vault := rfl
@[simp] theorem State.reach_tamper (s : State) (t : Nat) : (s.reach t).tamper = s.tamper := rfl
@[simp] theorem State.reach_inc (s : State) (t : Nat) : (s.reach t).inc = s.inc := rfl
@[simp] theorem State.reach_dial (s : State) (t : Nat) : (s.reach t).dial = s.dial := rfl
@[simp] theorem State.reach_link (s : State) (t : Nat) : (s.reach t).link = s.link := rfl
@[simp] theorem State.reach_writer (s : State) (t : Nat) : (s.reach t).writer = s.writer := rfl
@[simp] theorem State.reach_req (s : State) (t : Nat) : (s.reach t).req = s.req := rfl

/-! ### Expiries and reset -/

@[simp] theorem onExpiry_none (s : State) (f : State → State) : onExpiry none s f = s := rfl

@[simp] theorem onExpiry_some (t : Nat) (s : State) (f : State → State) : onExpiry (some t) s f = f (s.reach t) := rfl

theorem outOfReset_running {s : State} (h : s.start.rstHeld = false) (f : State → State) : outOfReset s f = f s := by
  simp [outOfReset, h]

theorem outOfReset_held {s : State} (h : s.start.rstHeld = true) (f : State → State) : outOfReset s f = s := by
  simp [outOfReset, h]

/-- What every event comes to: nothing, or its effect outside reset. -/
theorem outOfReset_cases (s : State) (f : State → State) : outOfReset s f = s ∨ outOfReset s f = f s := by
  unfold outOfReset
  split
  · exact .inl rfl
  · exact .inr rfl

/-- What every expiry comes to: nothing, or its effect at the instant it was due. -/
theorem onExpiry_cases (x : Option Nat) (s : State) (f : State → State) :
    onExpiry x s f = s ∨ ∃ t, x = some t ∧ onExpiry x s f = f (s.reach t) := by
  cases x with
  | none => exact .inl rfl
  | some t => exact .inr ⟨t, rfl, rfl⟩

end Sys2Proof.Machine
end

