-- ==== Sys2Proof/Laws/Calm.lean ====
section
/-!
SUPPORT. What no block's reaction touches: for each shared operation one lemma that says it leaves alone the time base, the
station clock, PFW, the RST pin, the start-up phase, the memory port, the own transaction in progress, the ACCEPT and coil outputs
and the transit table, lets no bounded collection grow, and keeps the quotas of the own-write queue. The lemmas chain backwards: from `Calm s t` to `Calm s (f t)`.
-/

namespace Sys2Proof.Machine

/-- `t` is `s` after reactions of the blocks. -/
structure Calm (s t : State) : Prop where
  now : t.now = s.now
  clock : t.clock = s.clock
  pfw : t.pfw = s.pfw
  pending : t.pending = s.pending
  draws : t.draws = s.draws
  link : t.link = s.link
  rstHeld : t.start.rstHeld = s.start.rstHeld
  startPhase : t.start.phase = s.start.phase
  writerPhase : t.writer.phase = s.writer.phase
  earlier : t.writer.earlier = s.writer.earlier
  quotas : quotasKept s.writer.queue → quotasKept t.writer.queue
  accept : t.pins.accept = s.pins.accept
  flapC : t.pins.flapC = s.pins.flapC
  flapR : t.pins.flapR = s.pins.flapR
  transit : t.coin.transit = s.coin.transit
  escrow : t.coin.escrow.length ≤ s.coin.escrow.length
  keys : t.num.keys.length ≤ s.num.keys.length
  buffer : t.num.buffer.length ≤ s.num.buffer.length
  sender : t.line.queue.length ≤ max 80 s.line.queue.length

theorem Calm.refl (s : State) : Calm s s :=
  ⟨rfl, rfl, rfl, rfl, rfl, rfl, rfl, rfl, rfl, rfl, id, rfl, rfl, rfl, rfl, le_rfl, le_rfl, le_rfl, le_max_right _ _⟩

theorem Calm.trans {s t u : State} (h : Calm s t) (k : Calm t u) : Calm s u where
  now := k.now.trans h.now
  clock := k.clock.trans h.clock
  pfw := k.pfw.trans h.pfw
  pending := k.pending.trans h.pending
  draws := k.draws.trans h.draws
  link := k.link.trans h.link
  rstHeld := k.rstHeld.trans h.rstHeld
  startPhase := k.startPhase.trans h.startPhase
  writerPhase := k.writerPhase.trans h.writerPhase
  earlier := k.earlier.trans h.earlier
  quotas := k.quotas ∘ h.quotas
  accept := k.accept.trans h.accept
  flapC := k.flapC.trans h.flapC
  flapR := k.flapR.trans h.flapR
  transit := k.transit.trans h.transit
  escrow := k.escrow.trans h.escrow
  keys := k.keys.trans h.keys
  buffer := k.buffer.trans h.buffer
  sender := by have := h.sender; have := k.sender; omega

/-! ### One block changed -/

theorem calm_onAcct {s t : State} {f : Account → Account} (h : Calm s t) : Calm s (t.onAcct f) := { h with }

theorem calm_onRate {s t : State} {f : Rating → Rating} (h : Calm s t) : Calm s (t.onRate f) := { h with }

theorem calm_onPipGen {s t : State} {f : PipGen → PipGen} (h : Calm s t) : Calm s (t.onPipGen f) := { h with }

theorem calm_onTariff {s t : State} {f : Tariff → Tariff} (h : Calm s t) : Calm s (t.onTariff f) := { h with }

theorem calm_onCall {s t : State} {f : CallControl → CallControl} (h : Calm s t) : Calm s (t.onCall f) := { h with }

theorem calm_onVault {s t : State} {f : Vault → Vault} (h : Calm s t) : Calm s (t.onVault f) := { h with }

theorem calm_onTamper {s t : State} {f : Tamper → Tamper} (h : Calm s t) : Calm s (t.onTamper f) := { h with }

theorem calm_onInc {s t : State} {f : Incidents → Incidents} (h : Calm s t) : Calm s (t.onInc f) := { h with }

theorem calm_onDial {s t : State} {f : Dialler → Dialler} (h : Calm s t) : Calm s (t.onDial f) := { h with }

theorem calm_onReq {s t : State} {f : Requests → Requests} (h : Calm s t) : Calm s (t.onReq f) := { h with }

theorem calm_onStart {s t : State} {f : Startup → Startup} (h : Calm s t) (hr : (f t.start).rstHeld = t.start.rstHeld)
    (hp : (f t.start).phase = t.start.phase) : Calm s (t.onStart f) :=
  { h with rstHeld := hr.trans h.rstHeld, startPhase := hp.trans h.startPhase }

theorem calm_onWriter {s t : State} {f : RecordWriter → RecordWriter} (h : Calm s t)
    (hp : (f t.writer).phase = t.writer.phase) (he : (f t.writer).earlier = t.writer.earlier)
    (hq : quotasKept t.writer.queue → quotasKept (f t.writer).queue) : Calm s (t.onWriter f) :=
  { h with writerPhase := hp.trans h.writerPhase, earlier := he.trans h.earlier, quotas := hq ∘ h.quotas }

theorem calm_onPins {s t : State} {f : Pins → Pins} (h : Calm s t) (ha : (f t.pins).accept = t.pins.accept)
    (hc : (f t.pins).flapC = t.pins.flapC) (hr : (f t.pins).flapR = t.pins.flapR) : Calm s (t.onPins f) :=
  { h with accept := ha.trans h.accept, flapC := hc.trans h.flapC, flapR := hr.trans h.flapR }

theorem calm_onCoin {s t : State} {f : CoinPath → CoinPath} (h : Calm s t) (ht : (f t.coin).transit = t.coin.transit)
    (he : (f t.coin).escrow.length ≤ t.coin.escrow.length) : Calm s (t.onCoin f) :=
  { h with transit := ht.trans h.transit, escrow := he.trans h.escrow }

theorem calm_onNum {s t : State} {f : NumberAnalyser → NumberAnalyser} (h : Calm s t)
    (hk : (f t.num).keys.length ≤ t.num.keys.length) (hb : (f t.num).buffer.length ≤ t.num.buffer.length) :
    Calm s (t.onNum f) := { h with keys := hk.trans h.keys, buffer := hb.trans h.buffer }

theorem calm_onLine {s t : State} {f : Line → Line} (h : Calm s t)
    (hq : (f t.line).queue.length ≤ max 80 t.line.queue.length) : Calm s (t.onLine f) :=
  { h with sender := by have := h.sender; exact hq.trans (by omega) }

/-! ### Lengths -/

theorem commitFirst_length : ∀ {l q : List Escrow} {v : Nat}, commitFirst l = some (v, q) → q.length = l.length
  | [], _, _, h => by simp [commitFirst] at h
  | x :: rest, q, v, h => by
    unfold commitFirst at h
    split at h
    · simp only [Option.some.injEq, Prod.mk.injEq] at h
      simp [← h.2]
    · cases hr : commitFirst rest with
      | none => simp [hr] at h
      | some p =>
        simp only [hr, Option.map_some, Option.some.injEq, Prod.mk.injEq] at h
        simp [← h.2, commitFirst_length hr]

theorem holdCredits_length (c : CoinPath) : (holdCredits c).length = c.escrow.length := by
  unfold holdCredits
  split <;> simp [*]

theorem cancelReturns_length (c : CoinPath) : (cancelReturns c).length = c.escrow.length := by
  unfold cancelReturns
  split <;> simp [*]

theorem dropUnsendable_length (m : DialMethod) (q : List Nat) : (dropUnsendable m q).length ≤ q.length := by
  cases m with
  | tone => exact le_rfl
  | decadic => exact (List.dropWhile_suffix _).length_le

/-! ### Reasons -/

theorem calm_raiseReason {s t : State} (r : BlockReason) (h : Calm s t) : Calm s (raiseReason r t) := by
  unfold raiseReason
  repeat' first | exact h | with_reducible apply calm_onCall

theorem calm_dropReason {s t : State} (r : BlockReason) (h : Calm s t) : Calm s (dropReason r t) := by
  unfold dropReason
  repeat' first | exact h | with_reducible apply calm_onCall

/-! ### The incident table -/

theorem calm_noteQualifying {s t : State} (q : Bool) (h : Calm s t) : Calm s (noteQualifying q t) := by
  unfold noteQualifying
  repeat' first | exact h | with_reducible apply calm_onDial

theorem calm_putSlot {s t : State} (k : IncidentKind) (x : Option Slot) (h : Calm s t) : Calm s (putSlot k x t) := by
  unfold putSlot
  repeat' first | exact h | with_reducible apply calm_onInc

theorem calm_openIncident {s t : State} (k : IncidentKind) (h : Calm s t) : Calm s (openIncident k t) := by
  unfold openIncident
  dsimp only
  repeat'
    first
      | exact h | with_reducible apply calm_putSlot | with_reducible apply calm_noteQualifying
      | with_reducible apply calm_onInc | split

theorem calm_endCondition {s t : State} (k : IncidentKind) (h : Calm s t) : Calm s (endCondition k t) := by
  unfold endCondition
  repeat' first | exact h | with_reducible apply calm_putSlot | split

theorem calm_addDetail {s t : State} (k : IncidentKind) (h : Calm s t) : Calm s (addDetail k t) := by
  unfold addDetail
  repeat' first | exact h | with_reducible apply calm_putSlot | split

theorem calm_addDetailMoney {s t : State} (k : IncidentKind) (v : Nat) (h : Calm s t) :
    Calm s (addDetailMoney k v t) := by
  unfold addDetailMoney
  repeat' first | exact h | with_reducible apply calm_putSlot | split

theorem calm_stringDetail {s t : State} (h : Calm s t) : Calm s (stringDetail t) := by
  unfold stringDetail
  repeat' first | exact h | with_reducible apply calm_addDetail | with_reducible apply calm_openIncident | split

/-! ### The own-write queue -/

theorem itemsOf_append (p : Producer) (l m : List Item) : itemsOf p (l ++ m) = itemsOf p l + itemsOf p m := by
  simp [itemsOf]

theorem itemsOf_cons (p : Producer) (i : Item) (l : List Item) : itemsOf p (i :: l) = itemsOf p [i] + itemsOf p l :=
  itemsOf_append p [i] l

theorem itemsOf_tail (p : Producer) : ∀ l : List Item, itemsOf p l.tail ≤ itemsOf p l
  | [] => le_rfl
  | i :: l => by rw [itemsOf_cons, List.tail_cons]; omega

/-- The queue's length is the sum of what its producers have in it. -/
theorem length_eq_itemsOf : ∀ l : List Item,
    l.length = itemsOf .call l + itemsOf .vault l + itemsOf .request l + itemsOf .rating l + itemsOf .incident l
  | [] => rfl
  | i :: l => by
    have ih := length_eq_itemsOf l
    have one : itemsOf .call [i] + itemsOf .vault [i] + itemsOf .request [i] + itemsOf .rating [i] + itemsOf .incident [i] = 1 := by
      unfold itemsOf
      cases h : i.producer <;> simp [h]
    rw [itemsOf_cons .call, itemsOf_cons .vault, itemsOf_cons .request, itemsOf_cons .rating, itemsOf_cons .incident,
      List.length_cons]
    omega

/-- The quotas add up to 12 (R169). -/
theorem quotasKept_length {q : List Item} (h : quotasKept q) : q.length ≤ 12 := by
  have h1 := h .call; have h2 := h .vault; have h3 := h .request; have h4 := h .rating; have h5 := h .incident
  rw [length_eq_itemsOf]
  simp only [Producer.quota] at h1 h2 h3 h4 h5
  omega

theorem quotasKept_tail {q : List Item} (h : quotasKept q) : quotasKept q.tail := fun p => (itemsOf_tail p q).trans (h p)

/-- One item more, within its producer's quota. -/
theorem quotasKept_add {i : Item} {t : State} {q : List Item} (hr : hasRoom i.producer t = true)
    (hq : ∀ p, itemsOf p q = itemsOf p [i] + itemsOf p t.writer.queue) (h : quotasKept t.writer.queue) : quotasKept q := by
  intro p
  have hp := h p
  rw [hq p]
  by_cases hi : i.producer = p
  · have hr := of_decide_eq_true hr
    subst hi
    have : itemsOf i.producer [i] = 1 := by simp [itemsOf]
    omega
  · have : itemsOf p [i] = 0 := by simp [itemsOf, hi]
    omega

/-- A record in another's place changes no producer's count. -/
theorem itemsOf_record (p : Producer) (r x : CallRecord) : itemsOf p [.record r] = itemsOf p [.record x] := by
  simp only [itemsOf, List.filter_cons, Item.producer]
  split <;> rfl

theorem itemsOf_placeBehindLast (p : Producer) (f : Item → Bool) (i : Item) :
    ∀ l, itemsOf p (placeBehindLast f i l) = itemsOf p [i] + itemsOf p l
  | [] => rfl
  | x :: rest => by
    have ih := itemsOf_placeBehindLast p f i rest
    unfold placeBehindLast
    split
    · rw [itemsOf_cons, ih, itemsOf_cons p x rest]; omega
    · exact itemsOf_cons _ _ _

theorem itemsOf_provisional {p : Producer} {seq : Nat} {x : Item} (r : CallRecord) (h : isProvisional seq x = true) :
    itemsOf p [.record r] = itemsOf p [x] := by
  cases x with
  | record x => exact itemsOf_record p r x
  | _ => exact absurd h (by simp [isProvisional])

theorem itemsOf_replaceByClosed (p : Producer) (r : CallRecord) :
    ∀ l, itemsOf p (replaceByClosed r l) = itemsOf p l
  | [] => rfl
  | x :: rest => by
    unfold replaceByClosed
    split
    · rename_i hx
      split
      · rw [itemsOf_placeBehindLast, itemsOf_provisional r hx, ← itemsOf_cons]
      · rw [itemsOf_cons, itemsOf_provisional r hx, ← itemsOf_cons]
    · rw [itemsOf_cons, itemsOf_replaceByClosed p r rest, ← itemsOf_cons]

/-- A checkpoint takes the place of what it replaces. -/
theorem itemsOf_checkpoint (p : Producer) (r : CallRecord) : ∀ l : List Item, l.any (isProvisional r.seq) = true →
    itemsOf p (.record r :: l.filter fun x => !isProvisional r.seq x) ≤ itemsOf p l
  | [], h => by simp at h
  | x :: rest, h => by
    have hsub : ∀ m : List Item, itemsOf p (m.filter fun x => !isProvisional r.seq x) ≤ itemsOf p m := fun m =>
      (List.Sublist.filter _ List.filter_sublist).length_le
    by_cases hx : isProvisional r.seq x = true
    · rw [itemsOf_cons, itemsOf_provisional r hx, itemsOf_cons p x rest, List.filter_cons_of_neg (by simp [hx])]
      have := hsub rest
      omega
    · have ih := itemsOf_checkpoint p r rest (by simpa [hx] using h)
      rw [List.filter_cons_of_pos (by simp [hx])]
      rw [itemsOf_cons] at ih ⊢
      rw [itemsOf_cons p x, itemsOf_cons p x rest]
      omega

/-- The waiting items replaced, no producer's count growing. -/
theorem quotasKept_withWaiting {w : RecordWriter} {l : List Item} (hl : ∀ p, itemsOf p l ≤ itemsOf p w.waiting)
    (h : quotasKept w.queue) : quotasKept (w.withWaiting l).queue := by
  intro p
  have hp := h p
  have hl := hl p
  unfold RecordWriter.waiting at hl
  unfold RecordWriter.withWaiting
  by_cases hb : w.begun = true
  · simp only [hb, if_true] at hl ⊢
    cases hq : w.queue with
    | nil =>
      rw [hq] at hl hp
      simpa using hl.trans hp
    | cons x rest =>
      rw [hq, List.tail_cons] at hl
      rw [hq, itemsOf_cons] at hp
      rw [List.take_succ_cons, List.take_zero, itemsOf_append]
      omega
  · simp only [hb] at hl ⊢
    simpa using hl.trans hp

theorem calm_pushItem {s t : State} (i : Item) (h : Calm s t) (hr : hasRoom i.producer t = true) :
    Calm s (pushItem i t) :=
  calm_onWriter h rfl rfl (quotasKept_add hr fun p => by rw [itemsOf_append]; omega)

theorem calm_handOver {s t : State} (i : Item) (h : Calm s t) : Calm s (handOver i t) := by
  unfold handOver
  split
  · exact calm_pushItem i h ‹_›
  · exact h

theorem calm_joinRecord {s t : State} (r : CallRecord) (h : Calm s t) (hr : hasRoom .call t = true) :
    Calm s (joinRecord r t) := by
  unfold joinRecord
  split
  · refine calm_onWriter h rfl rfl (quotasKept_add (i := .record r) (t := t) hr fun p => ?_)
    unfold RecordWriter.withWaiting RecordWriter.waiting
    by_cases hb : t.writer.begun = true
    · simp only [hb, if_true]
      cases t.writer.queue with
      | nil => rfl
      | cons x rest =>
        rw [List.take_succ_cons, List.take_zero, itemsOf_append, List.tail_cons, itemsOf_cons p (.record r),
          itemsOf_cons p x rest]
        omega
    · simp only [hb]
      exact itemsOf_cons _ _ _
  · exact calm_pushItem _ h hr

theorem calm_handRecord {s t : State} (r : CallRecord) (h : Calm s t) : Calm s (handRecord r t) := by
  unfold handRecord
  split
  · rename_i hp
    refine calm_onWriter h ?_ ?_ ?_
    · split <;> rfl
    · split <;> rfl
    · split
      · exact quotasKept_withWaiting fun p => itemsOf_checkpoint p r _ hp
      · exact quotasKept_withWaiting fun p => (itemsOf_replaceByClosed p r _).le
  · split
    · exact calm_onCall h
    · split
      · rename_i hr
        exact calm_joinRecord _ h (Bool.and_eq_true_iff.mp hr).1
      · exact calm_onCall h

theorem calm_releaseHeldRecord {s t : State} (h : Calm s t) : Calm s (releaseHeldRecord t) := by
  unfold releaseHeldRecord
  repeat'
    first | exact h | assumption | with_reducible apply calm_joinRecord | with_reducible apply calm_onCall | split

theorem calm_handVaultUpdate {s t : State} (h : Calm s t) : Calm s (handVaultUpdate t) := by
  unfold handVaultUpdate
  repeat' first | exact h | with_reducible apply calm_onVault | split
  rename_i hr
  exact calm_pushItem _ h (Bool.and_eq_true_iff.mp hr).1

theorem calm_handCollection {s t : State} (r : Collection) (b : PageB) (h : Calm s t) :
    Calm s (handCollection r b t) := by
  unfold handCollection
  repeat' first | exact h | with_reducible apply calm_onVault | split
  rename_i hr
  exact calm_pushItem _ h (Bool.and_eq_true_iff.mp hr).1

theorem calm_releaseHeldVault {s t : State} (h : Calm s t) : Calm s (releaseHeldVault t) := by
  unfold releaseHeldVault
  split
  · exact h
  · split
    · exact h
    · split
      · refine calm_pushItem _ (calm_onVault h) ?_
        split <;> assumption
      · exact h

theorem calm_handResponse {s t : State} (body : List Byte) (h : Calm s t) : Calm s (handResponse body t) := by
  unfold handResponse
  repeat'
    first | exact h | assumption | with_reducible apply calm_pushItem | with_reducible apply calm_onReq | split

theorem calm_releaseHeldRequest {s t : State} (h : Calm s t) : Calm s (releaseHeldRequest t) := by
  unfold releaseHeldRequest
  repeat'
    first | exact h | assumption | with_reducible apply calm_pushItem | with_reducible apply calm_onReq | split

theorem calm_handBankSwitch {s t : State} (h : Calm s t) : Calm s (handBankSwitch t) := by
  unfold handBankSwitch
  repeat'
    first | exact h | assumption | with_reducible apply calm_pushItem | with_reducible apply calm_onTariff | split

theorem calm_releaseHeldRating {s t : State} (h : Calm s t) : Calm s (releaseHeldRating t) := by
  unfold releaseHeldRating
  repeat'
    first
      | exact h | assumption | with_reducible apply calm_handBankSwitch | with_reducible apply calm_pushItem
      | with_reducible apply calm_onTariff | split

theorem calm_releaseStartRead {s t : State} (h : Calm s t) : Calm s (releaseStartRead t) := by
  unfold releaseStartRead
  repeat'
    first
      | exact h | assumption | with_reducible apply calm_pushItem | with_reducible apply calm_onStart | split | rfl

theorem calm_releaseHeld {s t : State} (h : Calm s t) : Calm s (releaseHeld t) := by
  unfold releaseHeld
  repeat'
    first
      | exact h | with_reducible apply calm_releaseStartRead | with_reducible apply calm_releaseHeldRating
      | with_reducible apply calm_releaseHeldRequest | with_reducible apply calm_releaseHeldVault
      | with_reducible apply calm_releaseHeldRecord

/-! ### The rating engine -/

theorem calm_countUnit {s t : State} (h : Calm s t) : Calm s (countUnit t) := by
  unfold countUnit
  repeat' first | exact h | with_reducible apply calm_onAcct

theorem calm_clearAccount {s t : State} (h : Calm s t) : Calm s (clearAccount t) := by
  unfold clearAccount
  repeat' first | exact h | with_reducible apply calm_onAcct | with_reducible apply calm_onRate

theorem calm_handOverAccount {s t : State} (h : Calm s t) : Calm s (handOverAccount t) := by
  unfold handOverAccount
  dsimp only
  repeat' first | exact h | with_reducible apply calm_onAcct | with_reducible apply calm_onRate

theorem calm_refund {s t : State} (v : Nat) (h : Calm s t) : Calm s (refund v t) := by
  unfold refund
  repeat' first | exact h | with_reducible apply calm_onAcct

theorem calm_holdValue {s t : State} (v : Nat) (h : Calm s t) : Calm s (holdValue v t) := by
  unfold holdValue
  repeat' first | exact h | with_reducible apply calm_onAcct

theorem calm_settingTest {s t : State} (x : RatingContext) (h : Calm s t) : Calm s (settingTest x t) := by
  unfold settingTest
  repeat' first | exact h | with_reducible apply calm_onAcct | split

theorem calm_clearingTest {s t : State} (h : Calm s t) : Calm s (clearingTest t) := by
  unfold clearingTest
  repeat' first | exact h | with_reducible apply calm_onAcct | split

theorem calm_payFromBanked {s t : State} (u : Nat) (h : Calm s t) : Calm s (payFromBanked u t) := by
  unfold payFromBanked
  repeat' first | exact h | with_reducible apply calm_onAcct

theorem calm_enterGrace {s t : State} (u : Nat) (x : RatingContext) (h : Calm s t) : Calm s (enterGrace u x t) := by
  unfold enterGrace
  dsimp only
  repeat'
    first
      | exact h | with_reducible apply calm_onAcct | with_reducible apply calm_onCall
      | with_reducible apply calm_onRate

theorem calm_collectRequest {s t u : State} {v : Nat} (h : Calm s t) (hc : collectRequest t = (some v, u)) :
    Calm s u := by
  unfold collectRequest at hc
  split at hc
  · simp at hc
  · split at hc
    · simp at hc
    · rename_i w q hq
      simp only [Prod.mk.injEq, Option.some.injEq] at hc
      rw [← hc.2]
      exact calm_onAcct (calm_onCoin h rfl (commitFirst_length hq).le)

theorem calm_debitLoop {s : State} (u : Nat) (x : RatingContext) : ∀ (fuel : Nat) {t : State}, Calm s t →
    Calm s (debitLoop u x fuel t)
  | 0, t, h => by
    unfold debitLoop
    split
    · exact calm_payFromBanked u h
    · exact calm_enterGrace u x h
  | fuel + 1, t, h => by
    unfold debitLoop
    split
    · exact calm_payFromBanked u h
    · split
      · exact calm_enterGrace u x h
      · exact calm_debitLoop u x fuel (calm_collectRequest h ‹_›)

theorem calm_debit {s t : State} (u : Nat) (x : RatingContext) (h : Calm s t) : Calm s (debit u x t) := by
  unfold debit
  repeat'
    first
      | exact h | with_reducible apply calm_debitLoop | with_reducible apply calm_settingTest
      | with_reducible apply calm_onAcct | split

theorem calm_charge {s t : State} (u : Nat) (x : RatingContext) (h : Calm s t) : Calm s (charge u x t) := by
  unfold charge
  repeat' first | exact h | with_reducible apply calm_debit | split

theorem calm_chargeStep {s t : State} (x : RatingContext) (h : Calm s t) : Calm s (chargeStep x t) := by
  unfold chargeStep
  repeat' first | exact h | with_reducible apply calm_charge | with_reducible apply calm_countUnit

theorem calm_chargePulse {s t : State} (x : RatingContext) (h : Calm s t) : Calm s (chargePulse x t) := by
  unfold chargePulse
  repeat' first | exact h | with_reducible apply calm_charge | with_reducible apply calm_countUnit

/-- All that the initial charge does: a debit, but for an I of 0 of a LOCAL call, which changes nothing. -/
theorem chargeInitial_eq (x : RatingContext) (s : State) :
    chargeInitial x s = if x.mode = .localBand ∧ x.initial = 0 then s else debit x.initial x s := by
  unfold chargeInitial charge
  cases x.mode <;> simp

theorem calm_chargeInitial {s t : State} (x : RatingContext) (h : Calm s t) : Calm s (chargeInitial x t) := by
  unfold chargeInitial
  repeat' first | exact h | with_reducible apply calm_charge | with_reducible apply calm_debit | split

theorem calm_startCharging {s t : State} (kind : AnswerKind) (h : Calm s t) : Calm s (startCharging kind t) := by
  unfold startCharging
  dsimp only
  repeat'
    first
      | exact h | with_reducible apply calm_chargePulse | with_reducible apply calm_chargeStep
      | with_reducible apply calm_chargeInitial | with_reducible apply calm_onRate | split

theorem calm_endCharging {s t : State} (h : Calm s t) : Calm s (endCharging t) := by
  unfold endCharging
  dsimp only
  repeat' first | exact h | with_reducible apply calm_onAcct | with_reducible apply calm_onRate

theorem calm_forfeit {s t : State} (h : Calm s t) : Calm s (forfeit t) := by
  unfold forfeit
  repeat' first | exact h | with_reducible apply calm_onAcct

/-! ### The coin path -/

theorem calm_confirmRelease {s t : State} (h : Calm s t) : Calm s (confirmRelease t) := by
  unfold confirmRelease
  repeat' first | exact h | with_reducible apply calm_onCoin | split | rfl | omega | simp

/-! ### The vault accounting unit -/

theorem calm_recomputeFill {s t : State} (h : Calm s t) : Calm s (recomputeFill t) := by
  unfold recomputeFill
  dsimp only
  repeat' first | exact h | with_reducible apply calm_raiseReason | with_reducible apply calm_onVault | split

theorem calm_confirmCoin {s t : State} (x : Escrow) (retry : Bool) (h : Calm s t) : Calm s (confirmCoin x retry t) := by
  unfold confirmCoin
  repeat'
    first
      | exact h | with_reducible apply calm_recomputeFill | with_reducible apply calm_handVaultUpdate
      | with_reducible apply calm_onVault

theorem calm_setSummary {s t : State} (r : Collection) (h : Calm s t) : Calm s (setSummary r t) := by
  unfold setSummary
  repeat' first | exact h | with_reducible apply calm_onVault

theorem calm_completeCollection {s t : State} (h : Calm s t) : Calm s (completeCollection t) := by
  unfold completeCollection
  dsimp only
  repeat'
    first
      | exact h | with_reducible apply calm_setSummary | with_reducible apply calm_recomputeFill
      | with_reducible apply calm_handCollection | with_reducible apply calm_dropReason
      | with_reducible apply calm_onVault

theorem calm_closeWindow {s t : State} (h : Calm s t) : Calm s (closeWindow t) := by
  unfold closeWindow
  dsimp only
  repeat' first | exact h | with_reducible apply calm_openIncident | with_reducible apply calm_onVault | split

theorem calm_endOvertime {s t : State} (h : Calm s t) : Calm s (endOvertime t) := by
  unfold endOvertime
  repeat' first | exact h | with_reducible apply calm_endCondition | with_reducible apply calm_onVault | split

theorem calm_openWindow {s t : State} (minutes : Nat) (h : Calm s t) : Calm s (openWindow minutes t) := by
  unfold openWindow
  dsimp only
  repeat' first | exact h | with_reducible apply calm_endOvertime | with_reducible apply calm_onVault | split

theorem calm_beginUnauthorised {s t : State} (h : Calm s t) : Calm s (beginUnauthorised t) := by
  unfold beginUnauthorised
  repeat' first | exact h | with_reducible apply calm_openIncident | with_reducible apply calm_onVault

/-! ### The tamper sensing unit -/

theorem calm_onChannel {s t : State} (c : Fin 6) (f : Channel → Channel) (h : Calm s t) : Calm s (onChannel c f t) := by
  unfold onChannel
  repeat' first | exact h | with_reducible apply calm_onTamper

theorem calm_armCheck {s t : State} (c : Fin 6) (h : Calm s t) : Calm s (armCheck c t) := by
  unfold armCheck
  dsimp only
  repeat'
    first
      | exact h | with_reducible apply calm_onChannel | with_reducible apply calm_endCondition
      | with_reducible apply calm_openIncident | split

theorem calm_checkAll {s t : State} (h : Calm s t) : Calm s (checkAll t) := by
  unfold checkAll
  repeat' first | exact h | with_reducible apply calm_armCheck

theorem calm_probeTrigger {s t : State} (h : Calm s t) : Calm s (probeTrigger t) := by
  unfold probeTrigger
  repeat' first | exact h | with_reducible apply calm_openIncident | with_reducible apply calm_onTamper

theorem calm_loiterRefresh {s t : State} (h : Calm s t) : Calm s (loiterRefresh t) := by
  unfold loiterRefresh
  dsimp only
  repeat' first | exact h | with_reducible apply calm_endCondition | with_reducible apply calm_onTamper | split

theorem calm_reseedChannel {s t : State} (c : Fin 6) (h : Calm s t) : Calm s (reseedChannel c t) := by
  unfold reseedChannel
  repeat'
    first
      | exact h | with_reducible apply calm_loiterRefresh | with_reducible apply calm_armCheck
      | with_reducible apply calm_onChannel

theorem calm_reseedReference {s t : State} (h : Calm s t) : Calm s (reseedReference t) := by
  unfold reseedReference
  dsimp only
  repeat' first | exact h | with_reducible apply calm_onTamper

theorem calm_reseedSet {s t : State} (set_ : Nat) (h : Calm s t) : Calm s (reseedSet set_ t) := by
  unfold reseedSet
  dsimp only
  repeat'
    first
      | exact h | with_reducible apply calm_reseedReference | with_reducible apply calm_reseedChannel | split

theorem calm_checkChanged {s t : State} (was : Six Channel) (c : Fin 6) (h : Calm s t) :
    Calm s (checkChanged was c t) := by
  unfold checkChanged
  repeat' first | exact h | with_reducible apply calm_armCheck | split

theorem calm_runningScan {s t : State} (raw : List (BitVec 16)) (h : Calm s t) : Calm s (runningScan raw t) := by
  unfold runningScan
  dsimp only
  repeat'
    first
      | exact h | with_reducible apply calm_checkChanged | with_reducible apply calm_loiterRefresh
      | with_reducible apply calm_onTamper

theorem calm_settlingScan {s t : State} (raw : List (BitVec 16)) (h : Calm s t) : Calm s (settlingScan raw t) := by
  unfold settlingScan
  dsimp only
  repeat' first | exact h | with_reducible apply calm_onTamper | split

theorem calm_scan {s t : State} (raw : List (BitVec 16)) (h : Calm s t) : Calm s (scan raw t) := by
  unfold scan
  dsimp only
  repeat'
    first
      | exact h | with_reducible apply calm_settlingScan | with_reducible apply calm_runningScan
      | with_reducible apply calm_onTamper | split

theorem calm_startSettling {s t : State} (h : Calm s t) : Calm s (startSettling t) := by
  unfold startSettling
  repeat' first | exact h | with_reducible apply calm_onTamper

theorem calm_contextStage {s t : State} (h : Calm s t) : Calm s (contextStage t) := by
  unfold contextStage
  dsimp only
  repeat'
    first
      | exact h | with_reducible apply calm_loiterRefresh | with_reducible apply calm_checkAll
      | with_reducible apply calm_onTamper | split

theorem calm_settleContext {s t : State} (h : Calm s t) : Calm s (settleContext t) := by
  unfold settleContext
  repeat'
    first
      | exact h | with_reducible apply calm_loiterRefresh | with_reducible apply calm_checkAll
      | with_reducible apply calm_onTamper

theorem calm_reseedIfHalted {s t : State} (c : Fin 6) (h : Calm s t) : Calm s (reseedIfHalted c t) := by
  unfold reseedIfHalted
  repeat' first | exact h | with_reducible apply calm_reseedChannel | split

theorem calm_probeIfReached {s t : State} (h : Calm s t) : Calm s (probeIfReached t) := by
  unfold probeIfReached
  repeat' first | exact h | with_reducible apply calm_probeTrigger | split

theorem calm_applyTamper {s t : State} (h : Calm s t) : Calm s (applyTamper t) := by
  unfold applyTamper
  dsimp only
  repeat'
    first
      | exact h | with_reducible apply calm_probeIfReached | with_reducible apply calm_reseedIfHalted
      | with_reducible apply calm_checkAll | with_reducible apply calm_onTamper | split

/-! ### The line controller -/

theorem calm_setTone {s t : State} (on : Bool) (code : Nat) (h : Calm s t) : Calm s (setTone on code t) := by
  unfold setTone
  repeat' first | exact h | with_reducible apply calm_onPins | split | rfl

theorem calm_setSeize {s t : State} (on : Bool) (h : Calm s t) : Calm s (setSeize on t) := by
  unfold setSeize
  repeat' first | exact h | with_reducible apply calm_onPins | split | rfl

theorem calm_startBreak {s t : State} (h : Calm s t) : Calm s (startBreak t) := by
  unfold startBreak
  repeat'
    first
      | exact h | with_reducible apply calm_setSeize | with_reducible apply calm_onLine | split | rfl | omega
      | simp

theorem calm_startDigit {s t : State} (h : Calm s t) : Calm s (startDigit t) := by
  unfold startDigit
  split
  · exact calm_setTone _ _ (calm_onLine h (le_max_right _ _))
  · exact calm_setTone _ _ (calm_onLine h (le_max_right _ _))
  · exact calm_startBreak (calm_onLine h (le_max_right _ _))

theorem calm_loadSender {s t : State} (w : LineOwner) (origin : SendOrigin) (mode : DialMethod) (digits : List Nat)
    (h : Calm s t) : Calm s (loadSender w origin mode digits t) := by
  unfold loadSender
  split
  swap
  · exact h
  refine calm_startDigit (calm_onLine h (((dropUnsendable_length mode _).trans ?_).trans (le_max_left _ _)))
  simp [senderSize]

theorem calm_appendTone {s t : State} (d : Nat) (h : Calm s t) : Calm s (appendTone d t) := by
  unfold appendTone
  split
  · rename_i hd
    have hl := hd.2
    have hq : (t.line.queue ++ [d]).length ≤ max 80 t.line.queue.length := by simp [senderSize] at hl ⊢; omega
    dsimp only
    split
    · exact calm_startDigit (calm_onLine h hq)
    · exact calm_onLine h hq
  · exact h

theorem calm_completeDigit {s t : State} (h : Calm s t) : Calm s (completeDigit t) := by
  have hq : (dropUnsendable t.line.mode t.line.queue.tail).length ≤ max 80 t.line.queue.length :=
    (dropUnsendable_length _ _).trans ((by simp : t.line.queue.tail.length ≤ t.line.queue.length).trans (le_max_right _ _))
  unfold completeDigit
  dsimp only
  split
  · exact calm_onLine (calm_onLine h hq) (le_max_right _ _)
  · exact calm_startDigit (calm_onLine h hq)

theorem calm_enterSeizing {s t : State} (followOn : Bool) (h : Calm s t) : Calm s (enterSeizing followOn t) := by
  unfold enterSeizing
  repeat'
    first
      | exact h | with_reducible apply calm_onCall | with_reducible apply calm_onLine | split | rfl | omega
      | simp

theorem calm_beginSeizing {s t : State} (h : Calm s t) : Calm s (beginSeizing t) := by
  unfold beginSeizing
  repeat' first | exact h | with_reducible apply calm_enterSeizing | with_reducible apply calm_clearAccount

theorem calm_dropLine {s t : State} (h : Calm s t) : Calm s (dropLine t) := by
  unfold dropLine
  repeat'
    first
      | exact h | with_reducible apply calm_onLine | with_reducible apply calm_onPins | split | rfl | omega
      | simp

theorem calm_releaseLine {s t : State} (w : LineOwner) (h : Calm s t) : Calm s (releaseLine w t) := by
  unfold releaseLine
  dsimp only
  repeat' first | exact h | with_reducible apply calm_dropLine | with_reducible apply calm_beginSeizing | split

theorem calm_withdrawCall {s t : State} (h : Calm s t) : Calm s (withdrawCall t) := by
  unfold withdrawCall
  repeat'
    first
      | exact h | with_reducible apply calm_releaseLine | with_reducible apply calm_onLine | split | rfl | omega
      | simp

theorem calm_withdrawReport {s t : State} (h : Calm s t) : Calm s (withdrawReport t) := by
  unfold withdrawReport
  repeat'
    first
      | exact h | with_reducible apply calm_releaseLine | with_reducible apply calm_onLine | split | rfl | omega
      | simp

theorem calm_lineGrant {s t : State} (h : Calm s t) : Calm s (lineGrant t) := by
  unfold lineGrant
  dsimp only
  repeat'
    first
      | exact h | with_reducible apply calm_setSeize | with_reducible apply calm_onCall
      | with_reducible apply calm_onDial | with_reducible apply calm_onLine | split | rfl | omega | simp

theorem calm_endGuard {s t : State} (h : Calm s t) : Calm s (endGuard t) := by
  unfold endGuard
  repeat'
    first
      | exact h | with_reducible apply calm_lineGrant | with_reducible apply calm_onLine | split | rfl | omega
      | simp

theorem calm_mapSlots {s t : State} (f : Slot → Slot) (h : Calm s t) : Calm s (mapSlots f t) := by
  unfold mapSlots
  repeat' first | exact h | with_reducible apply calm_onInc

theorem calm_attemptFail {s t : State} (reason : FailReason) (h : Calm s t) : Calm s (attemptFail reason t) := by
  unfold attemptFail
  dsimp only
  repeat'
    first
      | exact h | with_reducible apply calm_mapSlots | with_reducible apply calm_withdrawReport
      | with_reducible apply calm_onDial | split

/-! ### The call controller -/

theorem calm_tariffSwitch {s t : State} (h : Calm s t) : Calm s (tariffSwitch t) := by
  unfold tariffSwitch
  repeat'
    first
      | exact h | with_reducible apply calm_handBankSwitch | with_reducible apply calm_dropReason
      | with_reducible apply calm_onTariff | split

theorem calm_refreshAlmostFull {s t : State} (h : Calm s t) : Calm s (refreshAlmostFull t) := by
  unfold refreshAlmostFull
  repeat' first | exact h | with_reducible apply calm_onCall

theorem calm_applyToDialler {s t : State} (h : Calm s t) : Calm s (applyToDialler t) := by
  unfold applyToDialler
  repeat' first | exact h | with_reducible apply calm_attemptFail | split

theorem calm_takeSettings {s t : State} (h : Calm s t) : Calm s (takeSettings t) := by
  unfold takeSettings
  repeat'
    first
      | exact h | with_reducible apply calm_applyToDialler | with_reducible apply calm_refreshAlmostFull
      | with_reducible apply calm_applyTamper | with_reducible apply calm_recomputeFill

theorem calm_applyConfig {s t : State} (h : Calm s t) : Calm s (applyConfig t) := by
  unfold applyConfig
  repeat'
    first
      | exact h | with_reducible apply calm_takeSettings | with_reducible apply calm_dropReason
      | with_reducible apply calm_onReq | split

theorem calm_enterIdle {s t : State} (h : Calm s t) : Calm s (enterIdle t) := by
  unfold enterIdle
  repeat'
    first
      | exact h | with_reducible apply calm_applyConfig | with_reducible apply calm_tariffSwitch
      | with_reducible apply calm_onCall | with_reducible apply calm_onNum | split | rfl | omega | simp

theorem calm_enterParked {s t : State} (h : Calm s t) : Calm s (enterParked t) := by
  unfold enterParked
  repeat'
    first
      | exact h | with_reducible apply calm_onCall | with_reducible apply calm_onNum | split | rfl | omega
      | simp

theorem calm_handCallRecord {s t : State} (kind : RecordKind) (cause : EndCause) (duration : Nat) (x : Figures) (h : Calm s t) :
    Calm s (handCallRecord kind cause duration x t) := by
  unfold handCallRecord
  repeat' first | exact h | with_reducible apply calm_handRecord | split

theorem calm_takeCheckpoint {s t : State} (h : Calm s t) : Calm s (takeCheckpoint t) := by
  unfold takeCheckpoint
  repeat' first | exact h | with_reducible apply calm_handCallRecord

theorem calm_stopTimers {s t : State} (h : Calm s t) : Calm s (stopTimers t) := by
  unfold stopTimers
  repeat' first | exact h | with_reducible apply calm_onCall | with_reducible apply calm_onNum | split | rfl

theorem calm_completeClearing {s t : State} (h : Calm s t) : Calm s (completeClearing t) := by
  unfold completeClearing
  dsimp only
  repeat'
    first
      | exact h | with_reducible apply calm_handCallRecord | with_reducible apply calm_enterParked
      | with_reducible apply calm_enterIdle | with_reducible apply calm_clearAccount
      | with_reducible apply calm_onCall | split

theorem calm_finishReturnAll {s t : State} (h : Calm s t) : Calm s (finishReturnAll t) := by
  unfold finishReturnAll
  dsimp only
  repeat'
    first
      | exact h | with_reducible apply calm_completeClearing | with_reducible apply calm_onCoin | split | rfl

theorem calm_heldDetail {s t : State} (v : Nat) (h : Calm s t) : Calm s (heldDetail v t) := by
  unfold heldDetail
  repeat' first | exact h | with_reducible apply calm_addDetailMoney | split

theorem calm_finishFrozen {s t : State} (h : Calm s t) : Calm s (finishFrozen t) :=
  calm_finishReturnAll (calm_holdValue _ (calm_heldDetail _ (calm_onCoin h rfl (holdCredits_length _).le)))

theorem calm_requestReturnAll {s t : State} (h : Calm s t) : Calm s (requestReturnAll t) := by
  unfold requestReturnAll
  split
  · exact calm_finishFrozen h
  · split
    · exact calm_onCoin h rfl (by simp [markReturns])
    · exact calm_finishReturnAll h

theorem calm_enterClearing {s t : State} (cause : EndCause) (h : Calm s t) : Calm s (enterClearing cause t) := by
  unfold enterClearing
  dsimp only
  repeat'
    first
      | exact h | with_reducible apply calm_requestReturnAll | with_reducible apply calm_stopTimers
      | with_reducible apply calm_withdrawCall | with_reducible apply calm_forfeit
      | with_reducible apply calm_endCharging | with_reducible apply calm_onCall

theorem calm_freezeEscrow {s t : State} (h : Calm s t) : Calm s (freezeEscrow t) := by
  unfold freezeEscrow
  dsimp only
  split
  · exact calm_finishFrozen (calm_onCoin h rfl (cancelReturns_length _).le)
  · exact calm_onCoin h rfl (cancelReturns_length _).le

theorem calm_raiseFreezing {s t : State} (r : BlockReason) (k : IncidentKind) (h : Calm s t) :
    Calm s (raiseFreezing r k t) := by
  unfold raiseFreezing
  dsimp only
  repeat'
    first
      | exact h | with_reducible apply calm_freezeEscrow | with_reducible apply calm_openIncident
      | with_reducible apply calm_raiseReason | split

theorem calm_restartHold {s t : State} (h : Calm s t) : Calm s (restartHold t) := by
  unfold restartHold
  repeat' first | exact h | with_reducible apply calm_onCall

theorem calm_enterCollect {s t : State} (h : Calm s t) : Calm s (enterCollect t) := by
  unfold enterCollect
  repeat'
    first
      | exact h | with_reducible apply calm_restartHold | with_reducible apply calm_onCall
      | with_reducible apply calm_onNum | split | rfl | omega | simp

theorem calm_countRefusal {s t : State} (r : Refusing) (h : Calm s t) : Calm s (countRefusal r t) := by
  unfold countRefusal
  repeat' first | exact h | with_reducible apply calm_onNum | split | rfl

theorem calm_refuseNumber {s t : State} (r : Refusing) (h : Calm s t) : Calm s (refuseNumber r t) := by
  unfold refuseNumber
  repeat'
    first
      | exact h | with_reducible apply calm_countRefusal | with_reducible apply calm_restartHold
      | with_reducible apply calm_onNum | split | rfl | omega | simp

theorem calm_takeAnswer {s t : State} (kind : AnswerKind) (h : Calm s t) : Calm s (takeAnswer kind t) := by
  unfold takeAnswer
  dsimp only
  repeat'
    first
      | exact h | with_reducible apply calm_takeCheckpoint | with_reducible apply calm_handCallRecord
      | with_reducible apply calm_startCharging | with_reducible apply calm_onCall
      | with_reducible apply calm_onLine | split | rfl | omega | simp

theorem calm_enterRinging {s t : State} (h : Calm s t) : Calm s (enterRinging t) := by
  unfold enterRinging
  dsimp only
  repeat' first | exact h | with_reducible apply calm_takeAnswer | with_reducible apply calm_onCall | split

theorem calm_enterAfterCall {s t : State} (h : Calm s t) : Calm s (enterAfterCall t) := by
  unfold enterAfterCall
  repeat'
    first
      | exact h | with_reducible apply calm_stopTimers | with_reducible apply calm_endCharging
      | with_reducible apply calm_onCall

theorem calm_takeFollowOn {s t : State} (h : Calm s t) : Calm s (takeFollowOn t) := by
  unfold takeFollowOn
  dsimp only
  repeat'
    first
      | exact h | with_reducible apply calm_stopTimers | with_reducible apply calm_handCallRecord
      | with_reducible apply calm_lineGrant | with_reducible apply calm_releaseLine
      | with_reducible apply calm_enterSeizing | with_reducible apply calm_endCharging
      | with_reducible apply calm_handOverAccount | with_reducible apply calm_onCall

theorem calm_tellSent {s t : State} (h : Calm s t) : Calm s (tellSent t) := by
  unfold tellSent
  dsimp only
  repeat'
    first
      | exact h | with_reducible apply calm_enterRinging | with_reducible apply calm_onDial
      | with_reducible apply calm_onLine | split | rfl | omega | simp

theorem calm_allocateRecord {s t : State} (h : Calm s t) : Calm s (allocateRecord t) := by
  unfold allocateRecord
  dsimp only
  repeat'
    first
      | exact h | with_reducible apply calm_refreshAlmostFull | with_reducible apply calm_raiseReason
      | with_reducible apply calm_onCall | split

theorem calm_dialNumber {s t : State} (h : Calm s t) : Calm s (dialNumber t) := by
  unfold dialNumber
  repeat'
    first
      | exact h | with_reducible apply calm_tellSent | with_reducible apply calm_stopTimers
      | with_reducible apply calm_loadSender | with_reducible apply calm_onCall

theorem calm_dialRecorded {s t : State} (h : Calm s t) : Calm s (dialRecorded t) := by
  unfold dialRecorded
  repeat' first | exact h | with_reducible apply calm_dialNumber | with_reducible apply calm_allocateRecord

theorem calm_awaitDeposit {s t : State} (deposit : Nat) (h : Calm s t) : Calm s (awaitDeposit deposit t) := by
  unfold awaitDeposit
  repeat' first | exact h | with_reducible apply calm_stopTimers | with_reducible apply calm_onCall

theorem calm_graceCoin {s t : State} (h : Calm s t) : Calm s (graceCoin t) := by
  unfold graceCoin
  split
  · exact h
  · have k := calm_collectRequest h ‹_›
    dsimp only
    split
    · exact calm_clearingTest (calm_onCall (calm_onRate (calm_onAcct k)))
    · exact calm_onAcct k

theorem calm_afterCredit {s t : State} (h : Calm s t) : Calm s (afterCredit t) := by
  unfold afterCredit
  repeat'
    first
      | exact h | with_reducible apply calm_graceCoin | with_reducible apply calm_awaitDeposit
      | with_reducible apply calm_dialRecorded | with_reducible apply calm_restartHold
      | with_reducible apply calm_clearingTest | split

theorem calm_creditCoin {s t : State} (v : Nat) (h : Calm s t) : Calm s (creditCoin v t) := by
  unfold creditCoin
  repeat' first | exact h | with_reducible apply calm_onAcct

theorem calm_clearCall {s t : State} (cause : EndCause) (h : Calm s t) : Calm s (clearCall cause t) := by
  unfold clearCall
  repeat' first | exact h | with_reducible apply calm_enterClearing | split

/-! ### The number analyser -/

theorem calm_routeCall {s t : State} (kind : RouteKind) (x : RatingContext) (h : Calm s t) :
    Calm s (routeCall kind x t) := by
  unfold routeCall
  repeat' first | exact h | with_reducible apply calm_onCall | with_reducible apply calm_onRate

theorem calm_routeEmergency {s t : State} (h : Calm s t) : Calm s (routeEmergency t) := by
  unfold routeEmergency
  dsimp only
  repeat'
    first
      | exact h | with_reducible apply calm_routeCall | with_reducible apply calm_dialRecorded
      | with_reducible apply calm_dialNumber | with_reducible apply calm_onCall | split

theorem calm_routeBand {s t : State} (k : Nat) (x : Band) (h : Calm s t) : Calm s (routeBand k x t) := by
  unfold routeBand
  dsimp only
  repeat'
    first
      | exact h | with_reducible apply calm_routeCall | with_reducible apply calm_awaitDeposit
      | with_reducible apply calm_dialRecorded | with_reducible apply calm_refuseNumber | split

theorem calm_completeNumber {s t : State} (r : Route) (h : Calm s t) : Calm s (completeNumber r t) := by
  unfold completeNumber
  repeat' first | exact h | with_reducible apply calm_routeBand | with_reducible apply calm_refuseNumber | split

theorem calm_analyse {s t : State} (h : Calm s t) : Calm s (analyse t) := by
  unfold analyse
  dsimp only
  repeat'
    first
      | exact h | with_reducible apply calm_completeNumber | with_reducible apply calm_routeEmergency
      | with_reducible apply calm_refuseNumber | split

theorem calm_clearKey {s t : State} (h : Calm s t) : Calm s (clearKey t) := by
  unfold clearKey
  dsimp only
  repeat'
    first
      | exact h | with_reducible apply calm_restartHold | with_reducible apply calm_onNum | split | rfl | omega
      | simp

theorem calm_silenceOver {s t : State} (h : Calm s t) : Calm s (silenceOver t) := by
  unfold silenceOver
  dsimp only
  repeat'
    first
      | exact h | with_reducible apply calm_completeNumber | with_reducible apply calm_refuseNumber
      | with_reducible apply calm_onNum | split | rfl

theorem calm_toneKey {s t : State} (d : Nat) (h : Calm s t) : Calm s (toneKey d t) := by
  unfold toneKey
  repeat' first | exact h | with_reducible apply calm_appendTone | split

theorem calm_connectedKey {s t : State} (k : Key) (h : Calm s t) : Calm s (connectedKey k t) := by
  unfold connectedKey
  repeat' first | exact h | with_reducible apply calm_toneKey | with_reducible apply calm_takeFollowOn | split

theorem calm_afterCallKey {s t : State} (k : Key) (h : Calm s t) : Calm s (afterCallKey k t) := by
  unfold afterCallKey
  repeat' first | exact h | with_reducible apply calm_takeFollowOn | split

/-! ### The report dialler -/

theorem calm_preempt {s t : State} (h : Calm s t) : Calm s (preempt t) := by
  unfold preempt
  dsimp only
  repeat'
    first
      | exact h | with_reducible apply calm_enterClearing | with_reducible apply calm_releaseLine
      | with_reducible apply calm_onLine | split | rfl | omega | simp

theorem calm_askPreempt {s t : State} (h : Calm s t) : Calm s (askPreempt t) := by
  unfold askPreempt
  repeat' first | exact h | with_reducible apply calm_preempt | split

theorem calm_attemptBegin {s t : State} (h : Calm s t) : Calm s (attemptBegin t) := by
  unfold attemptBegin
  dsimp only
  repeat'
    first
      | exact h | with_reducible apply calm_askPreempt | with_reducible apply calm_attemptFail
      | with_reducible apply calm_lineGrant | with_reducible apply calm_onDial
      | with_reducible apply calm_onLine | split | rfl | omega | simp

theorem calm_freshSeries {s t : State} (h : Calm s t) : Calm s (freshSeries t) := by
  unfold freshSeries
  repeat' first | exact h | with_reducible apply calm_attemptBegin | with_reducible apply calm_onDial

theorem calm_reactStage {s t : State} (h : Calm s t) : Calm s (reactStage t) := by
  unfold reactStage
  dsimp only
  repeat' first | exact h | with_reducible apply calm_freshSeries | with_reducible apply calm_onDial | split

theorem calm_buildMessage {s t : State} (h : Calm s t) : Calm s (buildMessage t) := by
  unfold buildMessage
  dsimp only
  repeat'
    first
      | exact h | with_reducible apply calm_tellSent | with_reducible apply calm_mapSlots
      | with_reducible apply calm_loadSender | with_reducible apply calm_onDial

theorem calm_kissOff {s t : State} (h : Calm s t) : Calm s (kissOff t) := by
  unfold kissOff
  dsimp only
  repeat'
    first
      | exact h | with_reducible apply calm_attemptBegin | with_reducible apply calm_mapSlots
      | with_reducible apply calm_releaseLine | with_reducible apply calm_onDial | split

theorem calm_acktone {s t : State} (h : Calm s t) : Calm s (acktone t) := by
  unfold acktone
  dsimp only
  repeat'
    first
      | exact h | with_reducible apply calm_kissOff | with_reducible apply calm_buildMessage
      | with_reducible apply calm_onLine | split | rfl | omega | simp

theorem calm_lineReady {s t : State} (h : Calm s t) : Calm s (lineReady t) := by
  unfold lineReady
  dsimp only
  repeat'
    first
      | exact h | with_reducible apply calm_tellSent | with_reducible apply calm_enterCollect
      | with_reducible apply calm_loadSender | with_reducible apply calm_onDial
      | with_reducible apply calm_onLine | split | rfl | omega | simp

theorem calm_seizureFailed {s t : State} (h : Calm s t) : Calm s (seizureFailed t) := by
  unfold seizureFailed
  dsimp only
  repeat'
    first
      | exact h | with_reducible apply calm_enterClearing | with_reducible apply calm_attemptFail
      | with_reducible apply calm_releaseLine | with_reducible apply calm_onLine | split | rfl | omega | simp

theorem calm_lineLost {s t : State} (h : Calm s t) : Calm s (lineLost t) := by
  unfold lineLost
  dsimp only
  repeat'
    first
      | exact h | with_reducible apply calm_clearCall | with_reducible apply calm_attemptFail
      | with_reducible apply calm_releaseLine | with_reducible apply calm_onLine | split | rfl | omega | simp

theorem calm_loopLost {s t : State} (h : Calm s t) : Calm s (loopLost t) := by
  unfold loopLost
  repeat' first | exact h | with_reducible apply calm_lineLost | with_reducible apply calm_seizureFailed | split

/-! ### The stages after a command -/

theorem calm_queueIncident {s t : State} (k : IncidentKind) (x : Slot) (h : Calm s t)
    (hr : hasRoom .incident t = true) : Calm s (queueIncident k x t) := calm_pushItem _ (calm_onInc h) hr

theorem calm_leaveStage {s : State} : ∀ (fuel : Nat) {t : State}, Calm s t → Calm s (leaveStage fuel t)
  | 0, _, h => h
  | fuel + 1, t, h => by
    unfold leaveStage
    split
    · exact h
    · rename_i hl
      refine calm_leaveStage fuel (calm_queueIncident _ _ h ?_)
      unfold leaving at hl
      split at hl
      · exact (Bool.and_eq_true_iff.mp ‹_›).2
      · exact absurd hl (by simp)

theorem calm_reactions {s t : State} (h : Calm s t) : Calm s (reactions t) := by
  unfold reactions
  repeat' first | exact h | with_reducible apply calm_reactStage | with_reducible apply calm_contextStage

theorem calm_settle {s t : State} (h : Calm s t) : Calm s (settle t) :=
  calm_releaseHeld (calm_leaveStage 16 (calm_reactions h))

/-! ### The request handler -/

theorem calm_respond {s t : State} (res : Result) (detail : List Byte) (h : Calm s t) :
    Calm s (respond res detail t) := by
  unfold respond
  dsimp only
  repeat' first | exact h | with_reducible apply calm_handResponse | with_reducible apply calm_onReq

theorem calm_ackCalls {s t : State} (q : Nat) (h : Calm s t) : Calm s (ackCalls q t).2 := by
  unfold ackCalls
  dsimp only
  repeat'
    first
      | exact h | with_reducible apply calm_refreshAlmostFull | with_reducible apply calm_dropReason
      | with_reducible apply calm_onCall | split

theorem calm_ackIncidents {s t : State} (q : Nat) (h : Calm s t) : Calm s (ackIncidents q t).2 := by
  unfold ackIncidents
  repeat' first | exact h | with_reducible apply calm_onInc | split

theorem calm_testReport {s t : State} (h : Calm s t) : Calm s (testReport t) := by
  unfold testReport
  dsimp only
  repeat' first | exact h | with_reducible apply calm_freshSeries | with_reducible apply calm_onDial | split

theorem calm_clearSlotJam {s t : State} (h : Calm s t) : Calm s (clearSlotJam t) := by
  unfold clearSlotJam
  repeat' first | exact h | with_reducible apply calm_endCondition | with_reducible apply calm_dropReason | split

theorem calm_clearFreezing {s t : State} (r : BlockReason) (k : IncidentKind) (h : Calm s t) :
    Calm s (clearFreezing r k t) := by
  unfold clearFreezing
  dsimp only
  repeat'
    first
      | exact h | with_reducible apply calm_endCondition | with_reducible apply calm_dropReason
      | with_reducible apply calm_onCoin | split | rfl | omega | simp

theorem calm_clearAccountFault {s t : State} (h : Calm s t) : Calm s (clearAccountFault t) := by
  unfold clearAccountFault
  dsimp only
  repeat'
    first
      | exact h | with_reducible apply calm_setSummary | with_reducible apply calm_handBankSwitch
      | with_reducible apply calm_handCollection | with_reducible apply calm_handVaultUpdate
      | with_reducible apply calm_endCondition | with_reducible apply calm_dropReason
      | with_reducible apply calm_onTariff | with_reducible apply calm_onVault | split

theorem calm_clearReason {s t : State} (code : Nat) (h : Calm s t) : Calm s (clearReason code t) := by
  unfold clearReason
  split
  · exact calm_clearSlotJam h
  · exact calm_clearFreezing _ _ h
  · exact calm_clearFreezing _ _ h
  · exact calm_clearAccountFault h

theorem calm_clearBlockRequest {s t : State} (code : Nat) (h : Calm s t) : Calm s (clearBlockRequest code t) := by
  unfold clearBlockRequest
  repeat' first | exact h | with_reducible apply calm_clearReason | with_reducible apply calm_respond | split

theorem calm_startValidation {s t : State} (k : Bank) (expected : Option Nat) (h : Calm s t) :
    Calm s (startValidation k expected t) := by
  unfold startValidation
  repeat' first | exact h | with_reducible apply calm_onTariff

theorem calm_activateTariff {s t : State} (bank version : Nat) (h : Calm s t) :
    Calm s (activateTariff bank version t) := by
  unfold activateTariff
  repeat'
    first
      | exact h | with_reducible apply calm_startValidation | with_reducible apply calm_respond
      | with_reducible apply calm_onTariff | split

theorem calm_activationSucceeds {s t : State} (x : Shadow) (h : Calm s t) : Calm s (activationSucceeds x t) := by
  unfold activationSucceeds
  dsimp only
  repeat'
    first
      | exact h | with_reducible apply calm_respond | with_reducible apply calm_tariffSwitch
      | with_reducible apply calm_onTariff | split

theorem calm_activationFails {s t : State} (f : Finding) (h : Calm s t) : Calm s (activationFails f t) := by
  unfold activationFails
  repeat' first | exact h | with_reducible apply calm_respond | with_reducible apply calm_onTariff

theorem calm_startConfigRead {s t : State} (h : Calm s t) : Calm s (startConfigRead t) := by
  unfold startConfigRead
  repeat' first | exact h | with_reducible apply calm_onReq

theorem calm_reloadConfig {s t : State} (h : Calm s t) : Calm s (reloadConfig t) := by
  unfold reloadConfig
  repeat'
    first
      | exact h | with_reducible apply calm_startConfigRead | with_reducible apply calm_respond
      | with_reducible apply calm_onReq | split

theorem calm_reloadSucceeds {s t : State} (c : Settings) (h : Calm s t) : Calm s (reloadSucceeds c t) := by
  unfold reloadSucceeds
  dsimp only
  repeat'
    first
      | exact h | with_reducible apply calm_respond | with_reducible apply calm_applyConfig
      | with_reducible apply calm_onReq | split

theorem calm_reloadFails {s t : State} (f : Finding) (h : Calm s t) : Calm s (reloadFails f t) := by
  unfold reloadFails
  repeat' first | exact h | with_reducible apply calm_respond | with_reducible apply calm_onReq

theorem calm_answerWith {s : State} {p : Result × State} (h : Calm s p.2) : Calm s (answerWith p) :=
  calm_respond _ _ h

theorem calm_openServiceRequest {s t : State} (minutes : Nat) (h : Calm s t) :
    Calm s (openServiceRequest minutes t) := by
  unfold openServiceRequest
  repeat' first | exact h | with_reducible apply calm_respond | with_reducible apply calm_openWindow | split

theorem calm_closeServiceRequest {s t : State} (h : Calm s t) : Calm s (closeServiceRequest t) := by
  unfold closeServiceRequest
  repeat' first | exact h | with_reducible apply calm_respond | with_reducible apply calm_closeWindow | split

theorem calm_reseedRequest {s t : State} (set_ : Nat) (h : Calm s t) : Calm s (reseedRequest set_ t) := by
  unfold reseedRequest
  repeat' first | exact h | with_reducible apply calm_respond | with_reducible apply calm_reseedSet | split

/-! ### Start-up -/

theorem calm_finishRing {s t : State} (h : Calm s t) : Calm s (finishRing t) := by
  unfold finishRing
  dsimp only
  repeat'
    first
      | exact h | with_reducible apply calm_refreshAlmostFull | with_reducible apply calm_raiseReason
      | with_reducible apply calm_onCall | with_reducible apply calm_onStart | split | rfl

theorem calm_handRecords {s : State} (f : Nat × List Byte → CallRecord) : ∀ (l : List (Nat × List Byte)) {t : State},
    Calm s t → Calm s (l.foldl (fun u r => handRecord (f r) u) t)
  | [], _, h => h
  | _ :: rest, _, h => calm_handRecords f rest (calm_handRecord _ h)

theorem calm_rewriteRing {s t : State} (h : Calm s t) : Calm s (rewriteRing t) := by
  unfold rewriteRing
  dsimp only
  split
  · exact calm_finishRing (calm_onStart h rfl rfl)
  · exact calm_handRecords _ _ (calm_onStart h rfl rfl)

theorem calm_rewriteLeft {s t : State} (h : Calm s t) : Calm s (rewriteLeft t) := by
  unfold rewriteLeft
  dsimp only
  repeat' first | exact h | with_reducible apply calm_finishRing | with_reducible apply calm_onStart | split | rfl

theorem calm_ringPage {s t : State} (page : Nat) (bytes : Option (List Byte)) (h : Calm s t) :
    Calm s (ringPage page bytes t) := by
  unfold ringPage
  dsimp only
  repeat' first | exact h | with_reducible apply calm_rewriteRing | with_reducible apply calm_onStart | split | rfl

theorem calm_beginRing {s t : State} (h : Calm s t) : Calm s (beginRing t) := by
  unfold beginRing
  repeat' first | exact h | with_reducible apply calm_onStart | split | rfl

theorem calm_bankValid {s t : State} (k : Bank) (x : Shadow) (h : Calm s t) : Calm s (bankValid k x t) := by
  unfold bankValid
  repeat' first | exact h | with_reducible apply calm_beginRing | with_reducible apply calm_onTariff

theorem calm_bankInvalid {s t : State} (k : Bank) (f : Finding) (h : Calm s t) : Calm s (bankInvalid k f t) := by
  unfold bankInvalid
  repeat'
    first
      | exact h | with_reducible apply calm_beginRing | with_reducible apply calm_raiseReason
      | with_reducible apply calm_onTariff

theorem calm_validationFails {s t : State} (v : Validation) (f : Finding) (h : Calm s t) :
    Calm s (validationFails v f t) := by
  unfold validationFails
  repeat' first | exact h | with_reducible apply calm_bankInvalid | with_reducible apply calm_activationFails | split

theorem calm_validationSucceeds {s t : State} (v : Validation) (h : Calm s t) : Calm s (validationSucceeds v t) := by
  unfold validationSucceeds
  repeat' first | exact h | with_reducible apply calm_bankValid | with_reducible apply calm_activationSucceeds | split

theorem calm_validationNext {s t : State} (v : Validation) (h : Calm s t) : Calm s (validationNext v t) := by
  unfold validationNext
  repeat'
    first
      | exact h | with_reducible apply calm_validationSucceeds | with_reducible apply calm_validationFails
      | with_reducible apply calm_onTariff | split

theorem calm_bankPage {s t : State} (bytes : Option (List Byte)) (h : Calm s t) : Calm s (bankPage bytes t) := by
  unfold bankPage
  dsimp only
  repeat'
    first
      | exact h | with_reducible apply calm_validationNext | with_reducible apply calm_validationFails | split

theorem calm_raiseAccountFault {s t : State} (h : Calm s t) : Calm s (raiseAccountFault t) := by
  unfold raiseAccountFault
  repeat'
    first
      | exact h | with_reducible apply calm_openIncident | with_reducible apply calm_raiseReason
      | with_reducible apply calm_onVault

theorem calm_loadVault {s t : State} (a b : List Byte) (c : Option (List Byte)) (h : Calm s t) :
    Calm s (loadVault a b c t) := by
  unfold loadVault
  dsimp only
  repeat' first | exact h | with_reducible apply calm_handOver | with_reducible apply calm_onVault | split

theorem calm_finishVault {s t : State} (h : Calm s t) : Calm s (finishVault t) := by
  unfold finishVault
  dsimp only
  repeat'
    first
      | exact h | with_reducible apply calm_loadVault | with_reducible apply calm_raiseAccountFault
      | with_reducible apply calm_startValidation | with_reducible apply calm_recomputeFill
      | with_reducible apply calm_onStart | with_reducible apply calm_onVault | split | rfl

theorem calm_vaultPage {s t : State} (page : Nat) (bytes : Option (List Byte)) (h : Calm s t) :
    Calm s (vaultPage page bytes t) := by
  unfold vaultPage
  dsimp only
  repeat' first | exact h | with_reducible apply calm_finishVault | with_reducible apply calm_onStart | split | rfl

theorem calm_beginVault {s t : State} (h : Calm s t) : Calm s (beginVault t) := by
  unfold beginVault
  repeat' first | exact h | with_reducible apply calm_onReq | with_reducible apply calm_onStart | split | rfl

theorem calm_startConfigValid {s t : State} (c : Settings) (h : Calm s t) : Calm s (startConfigValid c t) := by
  unfold startConfigValid
  repeat'
    first
      | exact h | with_reducible apply calm_beginVault | with_reducible apply calm_takeSettings
      | with_reducible apply calm_onReq

theorem calm_startConfigInvalid {s t : State} (f : Finding) (h : Calm s t) : Calm s (startConfigInvalid f t) := by
  unfold startConfigInvalid
  repeat'
    first
      | exact h | with_reducible apply calm_beginVault | with_reducible apply calm_raiseReason
      | with_reducible apply calm_onReq

theorem calm_configFails {s t : State} (f : Finding) (h : Calm s t) : Calm s (configFails f t) := by
  unfold configFails
  repeat'
    first
      | exact h | with_reducible apply calm_startConfigInvalid | with_reducible apply calm_reloadFails | split

theorem calm_configSucceeds {s t : State} (c : Settings) (h : Calm s t) : Calm s (configSucceeds c t) := by
  unfold configSucceeds
  repeat'
    first
      | exact h | with_reducible apply calm_startConfigValid | with_reducible apply calm_reloadSucceeds | split

theorem calm_configPage {s t : State} (page : Nat) (bytes : Option (List Byte)) (h : Calm s t) :
    Calm s (configPage page bytes t) := by
  unfold configPage
  dsimp only
  repeat'
    first
      | exact h | with_reducible apply calm_configSucceeds | with_reducible apply calm_configFails
      | with_reducible apply calm_onReq | split

/-! ### The record writer -/

theorem calm_requestDone {s t : State} (h : Calm s t) : Calm s (requestDone t) := by
  unfold requestDone
  repeat' first | exact h | with_reducible apply calm_onReq

theorem calm_newestFinal {s t : State} (q : Nat) (h : Calm s t) : Calm s (newestFinal q t) := by
  unfold newestFinal
  repeat' first | exact h | with_reducible apply calm_onCall

theorem calm_recordLeft {s t : State} (r : CallRecord) (h : Calm s t) : Calm s (recordLeft r t) := by
  unfold recordLeft
  repeat'
    first
      | exact h | with_reducible apply calm_rewriteLeft | with_reducible apply calm_newestFinal
      | with_reducible apply calm_onCall | split

theorem calm_incidentLeft {s t : State} (n : Nat) (h : Calm s t) : Calm s (incidentLeft n t) := by
  unfold incidentLeft
  repeat' first | exact h | with_reducible apply calm_onInc

theorem calm_itemWritten {s t : State} (i : Item) (h : Calm s t) : Calm s (itemWritten i t) := by
  unfold itemWritten
  repeat'
    first
      | exact h | with_reducible apply calm_incidentLeft | with_reducible apply calm_recordLeft
      | with_reducible apply calm_requestDone | split

end Sys2Proof.Machine
end

