-- ==== Sys2Proof/Laws/Memory.lean ====
section
/-!
SUPPORT. The serial memory: a read after a write, and the canonical form under every operation on it.
-/

namespace Sys2Proof.Machine

/-! ### The canonical form -/

theorem memAbove_lower {m : List Host.Cell} : ∀ {a b : Nat}, memAbove b m = true → a ≤ b → memAbove a m = true := by
  cases m with
  | nil => intros; rfl
  | cons c rest =>
    intro a b h hab
    simp only [memAbove, Bool.and_eq_true, decide_eq_true_eq] at h ⊢
    exact ⟨⟨hab.trans h.1.1, h.1.2⟩, h.2⟩

/-- Below the list's addresses every byte is blank. -/
theorem memRead_below {m : List Host.Cell} {low a : Nat} (h : memAbove low m = true) (ha : a < low) :
    memRead m a = blankByte := by
  cases m with
  | nil => rfl
  | cons c rest =>
    simp only [memAbove, Bool.and_eq_true, decide_eq_true_eq] at h
    simp [memRead, show a < c.1 by omega]

theorem memAbove_memWrite {v : Byte} : ∀ {m : List Host.Cell} {low a : Nat},
    memAbove low m = true → low ≤ a → memAbove low (memWrite m a v) = true := by
  intro m
  induction m with
  | nil =>
    intro low a _ ha
    by_cases hv : v = blankByte <;> simp [memWrite, memAbove, hv, ha]
  | cons c rest ih =>
    intro low a h ha
    obtain ⟨k, w⟩ := c
    simp only [memAbove, Bool.and_eq_true, decide_eq_true_eq] at h
    obtain ⟨⟨hk, hw⟩, hr⟩ := h
    simp only [memWrite]
    split
    · split
      · simp only [memAbove, Bool.and_eq_true, decide_eq_true_eq]
        exact ⟨⟨hk, hw⟩, hr⟩
      · simp only [memAbove, Bool.and_eq_true, decide_eq_true_eq]
        exact ⟨⟨ha, ‹_›⟩, ⟨by omega, hw⟩, hr⟩
    · split
      · split
        · exact memAbove_lower hr (by omega)
        · simp only [memAbove, Bool.and_eq_true, decide_eq_true_eq]
          rename_i hak _
          exact ⟨⟨ha, ‹_›⟩, hak ▸ hr⟩
      · simp only [memAbove, Bool.and_eq_true, decide_eq_true_eq]
        exact ⟨⟨hk, hw⟩, ih hr (by omega)⟩

theorem memWrite_mem {v : Byte} {a : Nat} {c : Host.Cell} : ∀ {m : List Host.Cell},
    c ∈ memWrite m a v → c ∈ m ∨ c.1 = a := by
  intro m
  induction m with
  | nil => by_cases hv : v = blankByte <;> simp +contextual [memWrite, hv]
  | cons d rest ih =>
    obtain ⟨k, w⟩ := d
    simp only [memWrite]
    intro h
    split at h <;> (try split at h) <;> simp only [List.mem_cons] at h ⊢
    · tauto
    · rcases h with rfl | h | h
      · exact .inr rfl
      · exact .inl (.inl h)
      · exact .inl (.inr h)
    · split at h
      · exact .inl (.inr h)
      · rcases List.mem_cons.mp h with rfl | h
        · exact .inr rfl
        · exact .inl (.inr h)
    · rcases h with h | h
      · exact .inl (.inl h)
      · rcases ih h with h | h
        · exact .inl (.inr h)
        · exact .inr h

/-- A write within the memory keeps the canonical form. -/
theorem memWf_memWrite {m : List Host.Cell} {a : Nat} (v : Byte) (h : memWf m = true) (ha : a < memorySize) :
    memWf (memWrite m a v) = true := by
  simp only [memWf, Bool.and_eq_true, List.all_eq_true, decide_eq_true_eq] at h ⊢
  refine ⟨memAbove_memWrite h.1 (Nat.zero_le a), fun c hc => ?_⟩
  rcases memWrite_mem hc with hc | hc
  · exact h.2 c hc
  · omega

/-! ### Read after write -/

theorem memRead_memWrite_above {v : Byte} : ∀ {m : List Host.Cell} {low a : Nat} (b : Nat),
    memAbove low m = true → memRead (memWrite m a v) b = if b = a then v else memRead m b := by
  intro m
  induction m with
  | nil =>
    intro low a b _
    by_cases hv : v = blankByte
    · by_cases hb : b = a <;> simp [memWrite, hv, memRead, hb]
    · rcases Nat.lt_trichotomy b a with hb | hb | hb
      · simp [memWrite, hv, memRead, hb, Nat.ne_of_lt hb]
      · simp [memWrite, hv, memRead, hb]
      · simp [memWrite, hv, memRead, Nat.not_lt.mpr hb.le, Nat.ne_of_gt hb]
  | cons c rest ih =>
    intro low a b h
    obtain ⟨k, w⟩ := c
    simp only [memAbove, Bool.and_eq_true, decide_eq_true_eq] at h
    obtain ⟨_, hr⟩ := h
    simp only [memWrite]
    split
    · split
      · by_cases hb : b = a
        · subst hb; simp [memRead, *]
        · simp [hb]
      · by_cases hb : b = a
        · simp [memRead, hb]
        · by_cases hlt : b < a
          · simp [memRead, hb, hlt, show b < k by omega]
          · simp [memRead, hb, hlt]
    · split
      · rename_i hak
        subst hak
        have hrest : b < a + 1 → memRead rest b = blankByte := fun hb => memRead_below hr hb
        split
        · by_cases hb : b = a
          · subst hb; simp [*]
          · by_cases hlt : b < a
            · simp [memRead, hb, hlt, hrest (by omega)]
            · simp [memRead, hb, hlt]
        · by_cases hb : b = a
          · simp [memRead, hb]
          · by_cases hlt : b < a <;> simp [memRead, hb, hlt]
      · rename_i hka hak
        by_cases hb : b < k
        · simp [memRead, hb, show b ≠ a by omega]
        · by_cases hbk : b = k
          · subst hbk; simp [memRead, show b ≠ a by omega]
          · simp [memRead, hb, hbk, ih b hr]

/-- Reading after writing one byte. -/
theorem memRead_memWrite {m : List Host.Cell} (h : memWf m = true) (a : Nat) (v : Byte) (b : Nat) :
    memRead (memWrite m a v) b = if b = a then v else memRead m b := by
  simp only [memWf, Bool.and_eq_true] at h
  exact memRead_memWrite_above b h.1

/-! ### Writes of several bytes -/

/-- A wrapped address lies in the page it started in. -/
theorem pageWrap_page (a i : Nat) : pageWrap a i / 64 = a / 64 := by
  unfold pageWrap; omega

theorem pageWrap_lt {a : Nat} (i : Nat) (h : a < memorySize) : pageWrap a i < memorySize := by
  unfold pageWrap; simp only [memorySize] at *; omega

theorem memWf_storePage : ∀ (data : List Byte) {m : List Host.Cell} {a : Nat} (i : Nat),
    memWf m = true → a < memorySize → memWf (storePage m a data i) = true := by
  intro data
  induction data with
  | nil => intros; assumption
  | cons v rest ih => intro m a i h ha; exact ih (i + 1) (memWf_memWrite v h (pageWrap_lt i ha)) ha

/-- A write in the memory keeps the canonical form. -/
theorem memWf_memStore {m : List Host.Cell} {a : Nat} (data : List Byte) (h : memWf m = true) (ha : a < memorySize) :
    memWf (memStore m a data) = true := memWf_storePage data 0 h ha

theorem memRead_storePage_outside : ∀ (data : List Byte) {m : List Host.Cell} {a b : Nat} (i : Nat),
    memWf m = true → a < memorySize → b / 64 ≠ a / 64 → memRead (storePage m a data i) b = memRead m b := by
  intro data
  induction data with
  | nil => intros; rfl
  | cons v rest ih =>
    intro m a b i h ha hb
    rw [storePage, ih (i + 1) (memWf_memWrite v h (pageWrap_lt i ha)) ha hb, memRead_memWrite h, if_neg]
    rintro rfl
    exact hb (pageWrap_page a i)

/-- A write in the memory leaves every byte of the other pages. -/
theorem memRead_memStore_outside {m : List Host.Cell} {a b : Nat} (data : List Byte) (h : memWf m = true)
    (ha : a < memorySize) (hb : b / 64 ≠ a / 64) : memRead (memStore m a data) b = memRead m b :=
  memRead_storePage_outside data 0 h ha hb

/-- The memory of the reset state has the canonical form. -/
theorem memWf_reset : memWf State.reset.link.mem = true := rfl

end Sys2Proof.Machine
end

