-- ==== Sys2Proof/Laws/Keeps.lean ====
section
/-!
SUPPORT. What every operation keeps, whatever it is for: time does not run back, the queue of commands stays, the two coils
are not both driven, and no bounded collection overflows (`Keeps`); and for the operations that leave the memory port alone
also its contents (`Mild`). The lemmas chain backwards, as those of `Calm` do.
-/

namespace Sys2Proof.Machine

structure Keeps (s t : State) : Prop where
  now : s.now ≤ t.now
  pending : t.pending = s.pending
  coil : oneCoil s → oneCoil t
  within : withinCapacity s → withinCapacity t

/-- `t` is `s` after an operation that leaves the memory port alone. -/
structure Mild (s t : State) : Prop extends Keeps s t where
  link : t.link = s.link
  own : s.writer.inMemory = true → t.writer.inMemory = true

theorem Mild.refl (s : State) : Mild s s := ⟨⟨le_rfl, rfl, id, id⟩, rfl, id⟩

theorem Keeps.refl (s : State) : Keeps s s := ⟨le_rfl, rfl, id, id⟩

theorem Keeps.trans {s t u : State} (h : Keeps s t) (k : Keeps t u) : Keeps s u :=
  ⟨h.now.trans k.now, k.pending.trans h.pending, k.coil ∘ h.coil, k.within ∘ h.within⟩

theorem Mild.trans {s t u : State} (h : Mild s t) (k : Mild t u) : Mild s u :=
  ⟨h.toKeeps.trans k.toKeeps, k.link.trans h.link, k.own ∘ h.own⟩

theorem Calm.mild {s t : State} (h : Calm s t) : Mild s t where
  now := h.now.ge
  pending := h.pending
  coil := by unfold oneCoil; rw [h.flapC, h.flapR]; exact id
  within := by
    have := h.escrow; have := h.keys; have := h.buffer; have := h.sender
    unfold withinCapacity; rw [h.transit]
    intro w
    have q := h.quotas w.2.2.2.2.2.2
    exact ⟨w.1, by omega, by omega, by omega, by omega, quotasKept_length q, q⟩
  link := h.link
  own := by unfold RecordWriter.inMemory; rw [h.writerPhase, h.earlier]; exact id

/-- A reaction of the blocks after an operation. -/
theorem Mild.calm {s t u : State} (h : Mild s t) (k : Calm t u) : Mild s u := h.trans k.mild

theorem Keeps.calm {s t u : State} (h : Keeps s t) (k : Calm t u) : Keeps s u := h.trans k.mild.toKeeps

/-- What the memory holds, and what is about to be stored in it, stays sound. -/
theorem Mild.memoryOk {s t : State} (h : Mild s t) (k : memoryOk s) : memoryOk t := by
  unfold Machine.memoryOk at *
  rw [h.link]
  exact ⟨k.1, h.own k.2.1, k.2.2⟩

theorem mild_reach (s : State) (x : Nat) : Mild s (s.reach x) := ⟨⟨le_max_left _ _, rfl, id, id⟩, rfl, id⟩

theorem mild_settle {s t : State} (h : Mild s t) : Mild s (settle t) := h.calm (calm_settle (Calm.refl t))

theorem keeps_settle {s t : State} (h : Keeps s t) : Keeps s (settle t) := h.calm (calm_settle (Calm.refl t))

/-- An expiry keeps what its effect keeps. -/
theorem mild_onExpiry {s : State} {f : State → State} (x : Option Nat) (h : ∀ t, Mild t (f t)) : Mild s (onExpiry x s f) := by
  rcases onExpiry_cases x s f with e | ⟨t, _, e⟩ <;> rw [e]
  · exact Mild.refl s
  · exact (mild_reach s t).trans (h _)

/-- An event outside reset keeps what its effect keeps. -/
theorem mild_outOfReset {s : State} {f : State → State} (h : Mild s (f s)) : Mild s (outOfReset s f) := by
  rcases outOfReset_cases s f with e | e <;> rw [e]
  · exact Mild.refl s
  · exact h

theorem keeps_outOfReset {s : State} {f : State → State} (h : Keeps s (f s)) : Keeps s (outOfReset s f) := by
  rcases outOfReset_cases s f with e | e <;> rw [e]
  · exact Keeps.refl s
  · exact h

/-! ### The pins -/

theorem refreshPip_frame (s : State) : ∃ p, refreshPip s = { s with pipGen := p } := by
  unfold refreshPip
  dsimp only
  split
  · exact ⟨PipGen.zero, rfl⟩
  · split
    · exact ⟨s.pipGen, rfl⟩
    · exact ⟨_, rfl⟩

/-- What the refresh of the pins can do. -/
theorem refreshPins_cases (s : State) : ∃ p, refreshPins s =
    { s with pipGen := p, pins := { s.pins with slotGate := gateRule s, mute := muteRule s.line,
                                                pip := p.high && s.line.owner == .call && !muteRule s.line } } := by
  obtain ⟨p, h⟩ := refreshPip_frame s
  refine ⟨p, ?_⟩
  unfold refreshPins
  rw [h]
  rfl

theorem mild_refreshPins {s t : State} (h : Mild s t) : Mild s (refreshPins t) := by
  obtain ⟨p, e⟩ := refreshPins_cases t
  rw [e]
  exact h.trans ⟨⟨le_rfl, rfl, id, id⟩, rfl, id⟩

/-- Every command's answer is a state with its pins refreshed. -/
theorem complete_eq {s t : State} (h : complete s = .next t) : t = refreshPins s := by
  injection h with h
  exact h.symm

/-! ### The coin path -/

theorem changeFirst_length (p : Transit → Bool) (f : Transit → Transit) : ∀ l, (changeFirst p f l).length = l.length
  | [] => rfl
  | x :: rest => by unfold changeFirst; split <;> simp [changeFirst_length p f rest]

theorem removeFirst_length (p : Transit → Bool) : ∀ l, (removeFirst p l).length ≤ l.length
  | [] => le_rfl
  | x :: rest => by
    have := removeFirst_length p rest
    unfold removeFirst
    split
    · simp
    · simpa using this

/-- The coin path changed, within its two bounds. -/
theorem mild_onCoin {s t : State} {f : CoinPath → CoinPath} (h : Mild s t)
    (ht : t.coin.transit.length ≤ 3 → (f t.coin).transit.length ≤ 3)
    (he : t.coin.escrow.length ≤ 10 → (f t.coin).escrow.length ≤ 10) : Mild s (t.onCoin f) :=
  h.trans ⟨⟨le_rfl, rfl, id, fun k => ⟨ht k.1, he k.2.1, k.2.2⟩⟩, rfl, id⟩

/-- The pins changed with at most one coil on. -/
theorem mild_onPins {s t : State} {f : Pins → Pins} (h : Mild s t)
    (hc : ¬ ((f t.pins).flapC = true ∧ (f t.pins).flapR = true)) : Mild s (t.onPins f) :=
  h.trans ⟨⟨le_rfl, rfl, fun _ => hc, id⟩, rfl, id⟩

/-- The coil outputs: never both. -/
theorem mild_driveCoil {s t : State} (x : Option Coil) (h : Mild s t) : Mild s (driveCoil x t) :=
  mild_onPins h (by cases x with | none => simp | some k => cases k <;> simp)

theorem mild_appendEscrow {s t : State} (cls : Option (Fin 8)) (value : Nat) (st : EscrowState) (standing : Standing)
    (h : Mild s t) (hroom : t.coin.escrow.length < 10) : Mild s (appendEscrow cls value st standing t) :=
  mild_onCoin h id (by simp; omega)

theorem mild_appendStray {s t : State} (h : Mild s t) : Mild s (appendStray t) := by
  unfold appendStray
  split
  · exact mild_appendEscrow _ _ _ _ h ‹_›
  · exact h.calm (calm_stringDetail (Calm.refl t))

theorem mild_retryRelease {s t : State} (r : InFlight) (h : Mild s t) : Mild s (retryRelease r t) :=
  mild_driveCoil _ (mild_onCoin h id id)

theorem mild_abandonRelease {s t : State} (h : Mild s t) : Mild s (abandonRelease t) :=
  mild_driveCoil _ (mild_onCoin h id (by cases t.coin.escrow <;> simp))

theorem mild_startPurgePulse {s t : State} (h : Mild s t) : Mild s (startPurgePulse t) :=
  mild_driveCoil _ (mild_onCoin h id id)

theorem mild_coinArrives {s t : State} (cls : Fin 8) (h : Mild s t) (hroom : t.coin.escrow.length < 10) :
    Mild s (coinArrives cls t) := by
  unfold coinArrives
  dsimp only
  split
  · exact (mild_appendEscrow _ _ _ _ h hroom).calm (calm_creditCoin _ (Calm.refl _))
  · split
    · exact (mild_appendEscrow _ _ _ _ h hroom).calm (calm_afterCredit (calm_creditCoin _ (Calm.refl _)))
    · exact mild_appendEscrow _ _ _ _ h hroom

/-! ### The number analyser -/

theorem mild_storeDigit {s t : State} (d : Nat) (h : Mild s t) : Mild s (storeDigit d t) := by
  unfold storeDigit
  split
  · rename_i hb
    have k : Mild s (t.onNum fun n => { n with buffer := n.buffer ++ [d], silenceEnd := some (t.now + silenceTime) }) :=
      h.trans ⟨⟨le_rfl, rfl, id, fun w => ⟨w.1, w.2.1, w.2.2.1, by simp [bufferSize] at hb ⊢; omega, w.2.2.2.2⟩⟩, rfl, id⟩
    exact k.calm (calm_analyse (calm_onCall (Calm.refl _)))
  · exact h

theorem mild_handleKey {s t : State} (k : Key) (h : Mild s t) : Mild s (handleKey k t) := by
  unfold handleKey
  split
  · unfold collectKey
    split
    · exact mild_storeDigit _ h
    · exact mild_storeDigit _ h
    · unfold hashKey
      split
      · exact h.calm (calm_completeNumber _ (Calm.refl t))
      · exact mild_storeDigit _ h
    · exact h.calm (calm_clearKey (Calm.refl t))
    · exact h
  · exact h.calm (calm_connectedKey _ (Calm.refl t))
  · exact h.calm (calm_afterCallKey _ (Calm.refl t))
  · exact h

/-! ### The request handler -/

theorem mild_setClockTo {s t : State} (day sec : Nat) (h : Mild s t) : Mild s (setClockTo day sec t) :=
  h.trans ⟨⟨le_rfl, rfl, id, id⟩, rfl, id⟩

theorem mild_respond {s t : State} (res : Result) (detail : List Byte) (h : Mild s t) : Mild s (respond res detail t) :=
  h.calm (calm_respond _ _ (Calm.refl t))

theorem mild_carryOut {s t : State} (l : List Byte) (h : Mild s t) : Mild s (carryOut l t) := by
  unfold carryOut
  split
  · unfold setClockRequest
    split
    · exact mild_respond _ _ h
    · exact mild_respond _ _ (mild_setClockTo _ _ h)
  · exact h.calm (calm_openServiceRequest _ (Calm.refl t))
  · exact h.calm (calm_closeServiceRequest (Calm.refl t))
  · exact h.calm (calm_activateTariff _ _ (Calm.refl t))
  · exact h.calm (calm_reloadConfig (Calm.refl t))
  · exact h.calm (calm_answerWith (calm_ackCalls _ (Calm.refl t)))
  · exact h.calm (calm_answerWith (calm_ackIncidents _ (Calm.refl t)))
  · exact mild_respond _ _ (h.calm (calm_testReport (Calm.refl t)))
  · exact h.calm (calm_clearBlockRequest _ (Calm.refl t))
  · exact h.calm (calm_reseedRequest _ (Calm.refl t))
  · exact mild_respond _ _ h

theorem mild_takeRequest {s t : State} (image : List Byte) (h : Mild s t) : Mild s (takeRequest image t) := by
  have k := h.calm (calm_onReq (f := fun r => { r with st := .working, latched := image }) (Calm.refl t))
  unfold takeRequest
  dsimp only
  split
  · exact mild_respond _ _ k
  · split
    · exact mild_respond _ _ k
    · exact mild_carryOut _ k

theorem mild_directRequest {s t : State} (image : List Byte) (h : Mild s t) : Mild s (directRequest image t) := by
  unfold directRequest
  split
  · exact h
  · exact mild_settle (mild_takeRequest _ h)

/-! ### Start-up -/

theorem mild_onStart {s t : State} {f : Startup → Startup} (h : Mild s t) : Mild s (t.onStart f) :=
  h.trans ⟨⟨le_rfl, rfl, id, id⟩, rfl, id⟩

theorem mild_enterReady {s t : State} (h : Mild s t) : Mild s (enterReady t) := by
  unfold enterReady
  dsimp only
  refine (mild_onStart (f := fun x => { x with phase := .ready, step := 0 }) h).calm (calm_lineGrant ?_)
  repeat'
    first
      | exact Calm.refl _ | with_reducible apply calm_beginUnauthorised | with_reducible apply calm_enterParked | split

theorem mild_enterPurging {s t : State} (h : Mild s t) : Mild s (enterPurging t) := by
  unfold enterPurging
  dsimp only
  split
  · exact mild_onCoin (mild_onStart h) id id
  · exact mild_startPurgePulse (mild_onStart h)

theorem mild_beginScanning {s t : State} (h : Mild s t) : Mild s (beginScanning t) :=
  (mild_onStart h).calm (calm_startConfigRead (Calm.refl _))

theorem mild_finishLog {s t : State} (h : Mild s t) : Mild s (finishLog t) := by
  unfold finishLog
  dsimp only
  exact mild_enterPurging (mild_onStart (h.calm (calm_onInc (Calm.refl t))))

theorem mild_logPage {s t : State} (page : Nat) (bytes : Option (List Byte)) (h : Mild s t) : Mild s (logPage page bytes t) := by
  unfold logPage
  dsimp only
  split
  · exact mild_onStart (mild_onStart h)
  · exact mild_finishLog (mild_onStart h)

theorem mild_deliver {s t : State} (for_ : ReadFor) (page : Nat) (bytes : Option (List Byte)) (h : Mild s t) :
    Mild s (deliver for_ page bytes t) := by
  unfold deliver
  split
  · exact h.calm (calm_configPage _ _ (Calm.refl t))
  · exact h.calm (calm_vaultPage _ _ (Calm.refl t))
  · exact h.calm (calm_bankPage _ (Calm.refl t))
  · exact h.calm (calm_ringPage _ _ (Calm.refl t))
  · exact mild_logPage _ _ h

/-! ### The record writer -/

/-- The record writer's transaction changed, with no write outside the memory in progress. -/
theorem mild_onWriter {s t : State} {f : RecordWriter → RecordWriter} (h : Mild s t)
    (hp : t.writer.inMemory = true → (f t.writer).inMemory = true)
    (hq : (f t.writer).queue = t.writer.queue := by rfl) : Mild s (t.onWriter f) :=
  h.trans ⟨⟨le_rfl, rfl, id, fun w => ⟨w.1, w.2.1, w.2.2.1, w.2.2.2.1, w.2.2.2.2.1,
    by rw [State.onWriter_writer, hq]; exact w.2.2.2.2.2⟩⟩, rfl, hp⟩

/-- A transaction that is not writing, with what awaited its confirmation where it was. -/
theorem inMemory_of_earlier {w : RecordWriter} (h : w.inMemory = true) {u : RecordWriter} (hp : u.phase.inMemory = true)
    (he : u.earlier = w.earlier ∨ u.earlier = none) : u.inMemory = true := by
  unfold RecordWriter.inMemory at *
  rw [Bool.and_eq_true_iff] at *
  refine ⟨hp, ?_⟩
  rcases he with he | he <;> rw [he]
  exact h.2

theorem mild_itemLeaves {s t : State} (h : Mild s t) : Mild s (itemLeaves t) :=
  h.trans ⟨⟨le_rfl, rfl, id, fun w =>
    have q := quotasKept_tail w.2.2.2.2.2.2
    ⟨w.1, w.2.1, w.2.2.1, w.2.2.2.1, w.2.2.2.2.1, quotasKept_length q, q⟩⟩, rfl, fun _ => rfl⟩

theorem mild_itemDropped {s t : State} (i : Item) (h : Mild s t) : Mild s (itemDropped i t) := by
  have k := h.calm (calm_onWriter (f := fun w => { w with dropped := bump 255 w.dropped }) (Calm.refl t) rfl rfl id)
  unfold itemDropped
  dsimp only
  split
  · exact k.calm (calm_recordLeft _ (calm_raiseAccountFault (Calm.refl _)))
  · exact k.calm (calm_raiseAccountFault (Calm.refl _))
  · exact k.calm (calm_raiseAccountFault (Calm.refl _))
  · exact k.calm (calm_raiseAccountFault (calm_onTariff (Calm.refl _)))
  · exact k.calm (calm_incidentLeft _ (Calm.refl _))
  · exact k.calm (calm_requestDone (calm_onReq (Calm.refl _)))
  · exact mild_deliver _ _ _ k

theorem mild_confirmWrite {s t : State} (h : Mild s t) : Mild s (confirmWrite t) := by
  unfold confirmWrite
  split
  · exact mild_onWriter h fun k => inMemory_of_earlier k rfl (.inr rfl)
  · split
    · exact mild_onWriter h fun k => inMemory_of_earlier k rfl (.inr rfl)
    · exact (mild_itemLeaves h).calm (calm_itemWritten _ (Calm.refl _))

theorem mild_failAttempt {s t : State} (h : Mild s t) : Mild s (failAttempt t) := by
  unfold failAttempt
  split
  · exact mild_onWriter h fun k => inMemory_of_earlier k rfl (.inr rfl)
  · split
    · exact mild_onWriter h fun k => inMemory_of_earlier k rfl (.inr rfl)
    · exact mild_itemDropped _ (mild_itemLeaves h)

theorem ringAddress_lt (seq : Nat) : ringAddress seq < memorySize := by
  unfold ringAddress memorySize; omega

theorem logAddress_lt (n : Nat) : logAddress n < memorySize := by
  unfold logAddress memorySize; omega

/-- Every own write begins within the memory. -/
theorem transactionOf_inMemory (s : State) (i : Item) : (transactionOf s i).inMemory = true := by
  cases i with
  | record r => exact decide_eq_true (ringAddress_lt r.seq)
  | vaultUpdate => rfl
  | collection c b => simp only [transactionOf]; split <;> rfl
  | response body => rfl
  | bankSwitch k v => rfl
  | incident n body => exact decide_eq_true (logAddress_lt n)
  | read f p => rfl

theorem mild_beginTransaction {s t : State} (h : Mild s t) : Mild s (beginTransaction t) := by
  unfold beginTransaction
  split
  · exact mild_onWriter h fun k => inMemory_of_earlier k rfl (.inl rfl)
  · exact mild_onWriter h fun k => inMemory_of_earlier k (transactionOf_inMemory _ _) (.inl rfl)

theorem mild_ownStart {s t : State} (ack : Bool) (h : Mild s t) : Mild s (ownStart ack t) := by
  unfold ownStart
  split
  · split
    · exact mild_beginTransaction h
    · exact mild_onWriter h fun k => inMemory_of_earlier k rfl (.inl rfl)
  · exact h

end Sys2Proof.Machine
end

