-- ==== Sys2Proof/Laws/Link.lean ====
section
/-!
SUPPORT. The memory link's operations: what they keep, that they keep the memory sound, and that a host transaction leaves
every byte of a page that is always vetoed.
-/

namespace Sys2Proof.Machine

/-! ### What they keep -/

/-- The memory port changed: none of what `Keeps` speaks of. -/
theorem keeps_onLink {s t : State} {f : Link → Link} (h : Keeps s t) : Keeps s (t.onLink f) :=
  h.trans ⟨le_rfl, rfl, id, id⟩

theorem keeps_mild {s t u : State} (h : Keeps s t) (k : Mild t u) : Keeps s u := h.trans k.toKeeps

theorem keeps_endTxn {s t : State} (m : Marks) (e : WriteEnd) (h : Keeps s t) : Keeps s (endTxn m e t) := by
  unfold endTxn
  split <;> exact keeps_onLink h

theorem keeps_nakHost {s t : State} (x : LinkStatus) (h : Keeps s t) : Keeps s (nakHost x t) := keeps_onLink h

theorem keeps_relayNak {s t : State} (m : Marks) (x : HostTxn) (h : Keeps s t) : Keeps s (relayNak m x t) := by
  unfold relayNak
  exact keeps_endTxn _ _ (keeps_onLink h)

theorem keeps_triggerRequest {s t : State} (a : Nat) (data : List Byte) (h : Keeps s t) :
    Keeps s (triggerRequest a data t) := by
  unfold triggerRequest
  split
  · exact keeps_mild h (mild_takeRequest _ (Mild.refl t))
  · exact h

theorem keeps_classedWrite {s t : State} (m : Marks) (a : Nat) (data : List Byte) (e : WriteEnd) (h : Keeps s t) :
    Keeps s (classedWrite m a data e t) := by
  unfold classedWrite
  split
  · exact keeps_endTxn _ _ (keeps_onLink h)
  · split
    · unfold passedWrite
      split
      · exact keeps_endTxn _ _ (keeps_onLink h)
      · exact keeps_triggerRequest _ _ (keeps_endTxn _ _ (keeps_onLink h))
    · exact keeps_endTxn _ _ (keeps_onLink h)

theorem keeps_hostWrite {s t : State} (m : Marks) (a : Nat) (data : List Byte) (e : WriteEnd) (h : Keeps s t) :
    Keeps s (hostWrite m a data e t) := by
  unfold hostWrite
  dsimp only
  split
  · exact keeps_endTxn _ _ (keeps_onLink (keeps_onLink h))
  · exact keeps_classedWrite _ _ _ _ (keeps_onLink h)

theorem keeps_hostRead {s t : State} (m : Marks) (a n : Nat) (e : WriteEnd) (h : Keeps s t) :
    Keeps s (hostRead m a n e t) := by
  unfold hostRead giveHost
  exact keeps_endTxn _ _ (keeps_onLink (keeps_onLink h))

theorem keeps_cutRead {s t : State} (a n : Nat) (h : Keeps s t) : Keeps s (cutRead a n t) := by
  unfold cutRead endByLimit
  exact keeps_onLink (keeps_onLink h)

theorem keeps_brokenRead {s t : State} (a n : Nat) (h : Keeps s t) : Keeps s (brokenRead a n t) := by
  unfold brokenRead giveHost
  exact keeps_onLink (keeps_onLink h)

theorem keeps_limitInside {s t : State} (x : HoldPoint) (h : Keeps s t) : Keeps s (limitInside x t) := by
  unfold limitInside
  split
  · exact h
  · exact keeps_onLink (keeps_onLink h)
  · unfold cutWrite
    split
    · exact keeps_onLink (keeps_onLink (keeps_onLink h))
    · exact h
  · exact keeps_cutRead _ _ h
  · exact keeps_cutRead _ _ h

theorem keeps_perform {s t : State} (x : HostTxn) (held : Bool) (h : Keeps s t) : Keeps s (perform x held t) := by
  unfold perform
  dsimp only
  split
  · exact keeps_hostWrite _ _ _ _ h
  · exact keeps_endTxn _ _ (keeps_onLink h)
  · exact keeps_endTxn _ _ (keeps_onLink (keeps_onLink h))
  · exact keeps_hostRead _ _ _ _ h
  · exact keeps_hostRead _ _ _ _ h

theorem keeps_performHeld {s t : State} (h : Keeps s t) : Keeps s (performHeld t) := by
  unfold performHeld
  split
  · exact h
  · exact keeps_perform _ _ (keeps_onLink h)

theorem mild_confirmIfAwaiting {s t : State} (h : Mild s t) : Mild s (confirmIfAwaiting t) := by
  unfold confirmIfAwaiting
  split
  · exact mild_settle (mild_confirmWrite h)
  · exact h

theorem keeps_confirmIfAwaiting {s t : State} (h : Keeps s t) : Keeps s (confirmIfAwaiting t) :=
  keeps_mild h (mild_confirmIfAwaiting (Mild.refl t))

theorem keeps_hostArrives {s t : State} (x : HostTxn) (ack : Bool) (h : Keeps s t) : Keeps s (hostArrives x ack t) := by
  unfold hostArrives
  repeat'
    first
      | exact h | exact keeps_onLink h | exact keeps_relayNak _ _ h
      | exact keeps_perform _ _ (keeps_confirmIfAwaiting h) | split

theorem keeps_forwardHeld {s t : State} (ack : Bool) (h : Keeps s t) : Keeps s (forwardHeld ack t) := by
  unfold forwardHeld
  repeat' first | exact h | exact keeps_relayNak _ _ h | exact keeps_performHeld h | split

theorem keeps_resume {s t : State} (ack : Bool) (h : Keeps s t) : Keeps s (resume ack t) := by
  unfold resume
  split
  · exact keeps_settle (keeps_forwardHeld _ (keeps_settle h))
  · exact keeps_settle h

theorem keeps_memoryPoll {s t : State} (ack : Bool) (h : Keeps s t) : Keeps s (memoryPoll ack t) := by
  unfold memoryPoll pollAnswered
  split
  · split
    · refine keeps_settle ?_
      split
      · exact keeps_performHeld h
      · split
        · exact keeps_mild h (mild_beginTransaction (Mild.refl t))
        · exact h
    · exact keeps_resume _ (keeps_mild h (mild_confirmWrite (Mild.refl t)))
    · exact keeps_settle (keeps_performHeld h)
    · exact keeps_settle h
    · exact keeps_settle h
  · exact keeps_settle h

theorem keeps_failAttempt {s t : State} (h : Keeps s t) : Keeps s (failAttempt t) :=
  keeps_mild h (mild_failAttempt (Mild.refl t))

theorem keeps_releaseHost {s t : State} (h : Keeps s t) : Keeps s (releaseHost t) := by
  unfold releaseHost
  split
  · exact keeps_nakHost _ h
  · exact h

theorem keeps_unstore {s t : State} (h : Keeps s t) : Keeps s (unstore t) := by
  unfold unstore
  split
  · exact h
  · exact keeps_onLink h

theorem keeps_takeMemoryFault {s t : State} (h : Keeps s t) : Keeps s (takeMemoryFault t) := by
  have k : Keeps s (releaseHost (t.onLink fun l => { l with memFaults := bump 255 l.memFaults, lastWriter := .none })) :=
    keeps_releaseHost (keeps_onLink h)
  unfold takeMemoryFault
  dsimp only
  split
  · exact keeps_failAttempt k
  · exact keeps_failAttempt (keeps_unstore k)
  · exact k

theorem keeps_tearWrite {s t : State} (a : Nat) (d : List Byte) (h : Keeps s t) : Keeps s (tearWrite a d t) :=
  h.trans ⟨le_rfl, rfl, id, id⟩

theorem keeps_ownFailure {s t : State} (at_ : NakAt) (ack : Bool) (h : Keeps s t) : Keeps s (ownFailure at_ ack t) := by
  unfold ownFailure
  split
  · exact keeps_resume _ (keeps_failAttempt (keeps_onLink h))
  · exact keeps_resume _ (keeps_failAttempt (keeps_onLink h))
  · rcases onExpiry_cases t.writer.limit t fun u => resume ack (failAttempt u) with e | ⟨x, _, e⟩ <;> rw [e]
    · exact h
    · exact keeps_resume _ (keeps_failAttempt (keeps_mild h (mild_reach t x)))
  · exact keeps_settle h

theorem keeps_confirmIf {s t : State} {acked : Bool} (h : Keeps s t) : Keeps s (if acked then confirmIfAwaiting t else t) := by
  split
  · exact keeps_confirmIfAwaiting h
  · exact h

theorem keeps_busBroken {s t : State} (x : BrokenAt) (h : Keeps s t) : Keeps s (busBroken x t) := by
  have k : Keeps s (breakOff x t) := by
    unfold breakOff
    dsimp only
    repeat'
      first
        | exact keeps_onLink (keeps_confirmIf h) | exact keeps_onLink (keeps_confirmIfAwaiting h)
        | exact keeps_brokenRead _ _ (keeps_confirmIfAwaiting h) | split
  unfold busBroken
  dsimp only
  split
  · exact keeps_onLink (keeps_onLink h)
  · exact keeps_onLink k

theorem keeps_holdLimit {s t : State} (x : HoldPoint) (h : Keeps s t) : Keeps s (holdLimit x t) := by
  unfold holdLimit
  repeat'
    first
      | exact h | exact keeps_releaseHost (keeps_mild h (mild_reach t _))
      | exact keeps_limitInside _ (keeps_confirmIfAwaiting h) | split

theorem keeps_ownWriteStop {s t : State} (h : Keeps s t) : Keeps s (ownWriteStop t) := by
  unfold ownWriteStop
  split
  · exact h.trans ⟨le_rfl, rfl, id, id⟩
  · exact h

theorem keeps_readDone {s t : State} (a : Nat) (h : Keeps s t) : Keeps s (readDone a t) := by
  have k := keeps_mild (keeps_onLink (f := fun l => { l with tracked := some ((a + 64) % memorySize) }) h)
    (mild_itemLeaves (Mild.refl _))
  unfold readDone
  dsimp only
  split
  · exact keeps_mild k (mild_deliver _ _ _ (Mild.refl _))
  · exact k

/-! ### The memory stays sound -/

/-- The memory port changed, its contents and its held transaction as they were. -/
theorem memoryOk_onLink {t : State} {f : Link → Link} (h : memoryOk t) (hm : (f t.link).mem = t.link.mem)
    (hh : (f t.link).held = t.link.held ∨ (f t.link).held = none) : memoryOk (t.onLink f) := by
  unfold memoryOk at *
  refine ⟨(congrArg memWf hm).trans h.1, h.2.1, ?_⟩
  rcases hh with hh | hh <;> simp only [State.onLink_link, hh]
  · exact h.2.2
  · rfl

/-- Bytes stored in the memory. -/
theorem memoryOk_store {t : State} {f : Link → Link} {a : Nat} (data : List Byte) (h : memoryOk t) (ha : a < memorySize)
    (hm : (f t.link).mem = memStore t.link.mem a data) (hh : (f t.link).held = t.link.held) : memoryOk (t.onLink f) := by
  unfold memoryOk at *
  refine ⟨(congrArg memWf hm).trans (memWf_memStore data h.1 ha), h.2.1, ?_⟩
  simp only [State.onLink_link, hh]
  exact h.2.2

theorem memoryOk_endTxn {t : State} (m : Marks) (e : WriteEnd) (h : memoryOk t) : memoryOk (endTxn m e t) := by
  unfold endTxn
  split <;> exact memoryOk_onLink h rfl (.inl rfl)

theorem memoryOk_classedWrite {t : State} (m : Marks) {a : Nat} (data : List Byte) (e : WriteEnd) (h : memoryOk t)
    (ha : a < memorySize) : memoryOk (classedWrite m a data e t) := by
  unfold classedWrite
  split
  · exact memoryOk_endTxn _ _ (memoryOk_onLink h rfl (.inl rfl))
  · split
    · unfold passedWrite
      split
      · exact memoryOk_endTxn _ _ (memoryOk_onLink h rfl (.inl rfl))
      · have k : memoryOk (endTxn m e (storeHostWrite a data t)) := memoryOk_endTxn _ _ (memoryOk_store data h ha rfl rfl)
        unfold triggerRequest
        split
        · exact (mild_takeRequest _ (Mild.refl _)).memoryOk k
        · exact k
    · exact memoryOk_endTxn _ _ (memoryOk_onLink h rfl (.inl rfl))

theorem memoryOk_hostWrite {t : State} (m : Marks) {a : Nat} (data : List Byte) (e : WriteEnd) (h : memoryOk t)
    (ha : a < memorySize) : memoryOk (hostWrite m a data e t) := by
  unfold hostWrite
  dsimp only
  split
  · exact memoryOk_endTxn _ _ (memoryOk_onLink (memoryOk_onLink h rfl (.inl rfl)) rfl (.inl rfl))
  · exact memoryOk_classedWrite _ _ _ (memoryOk_onLink h rfl (.inl rfl)) ha

theorem memoryOk_hostRead {t : State} (m : Marks) (a n : Nat) (e : WriteEnd) (h : memoryOk t) :
    memoryOk (hostRead m a n e t) := by
  unfold hostRead giveHost
  exact memoryOk_endTxn _ _ (memoryOk_onLink (memoryOk_onLink h rfl (.inl rfl)) rfl (.inl rfl))

theorem memoryOk_perform {t : State} {x : HostTxn} (held : Bool) (h : memoryOk t) (hx : x.inMemory = true) :
    memoryOk (perform x held t) := by
  have k : memoryOk (giveHost [] t) := memoryOk_onLink h rfl (.inl rfl)
  unfold perform
  dsimp only
  split
  · exact memoryOk_hostWrite _ _ _ h (of_decide_eq_true hx)
  · exact memoryOk_endTxn _ _ k
  · exact memoryOk_endTxn _ _ (memoryOk_onLink k rfl (.inl rfl))
  · exact memoryOk_hostRead _ _ _ _ h
  · exact memoryOk_hostRead _ _ _ _ h

theorem memoryOk_performHeld {t : State} (h : memoryOk t) : memoryOk (performHeld t) := by
  unfold performHeld
  split
  · exact h
  · rename_i x hx
    have := h.2.2
    rw [hx] at this
    exact memoryOk_perform _ (memoryOk_onLink h rfl (.inr rfl)) this

theorem memoryOk_hold {t : State} {x : HostTxn} (h : memoryOk t) (hx : x.inMemory = true) :
    memoryOk (holdHost x t) := ⟨h.1, h.2.1, hx⟩

theorem memoryOk_nakHost {t : State} (x : LinkStatus) (h : memoryOk t) : memoryOk (nakHost x t) :=
  memoryOk_onLink h rfl (.inr rfl)

theorem memoryOk_relayNak {t : State} (m : Marks) (x : HostTxn) (h : memoryOk t) : memoryOk (relayNak m x t) := by
  unfold relayNak
  exact memoryOk_endTxn _ _ (memoryOk_onLink h rfl (.inr rfl))

theorem memoryOk_confirmIfAwaiting {t : State} (h : memoryOk t) : memoryOk (confirmIfAwaiting t) :=
  (mild_confirmIfAwaiting (Mild.refl t)).memoryOk h

theorem memoryOk_hostArrives {t : State} {x : HostTxn} (ack : Bool) (h : memoryOk t) (hx : x.inMemory = true) :
    memoryOk (hostArrives x ack t) := by
  unfold hostArrives
  repeat'
    first
      | exact h | exact memoryOk_onLink h rfl (.inl rfl) | exact memoryOk_hold h hx | exact memoryOk_relayNak _ _ h
      | exact memoryOk_perform _ (memoryOk_confirmIfAwaiting h) hx | split

theorem memoryOk_forwardHeld {t : State} (ack : Bool) (h : memoryOk t) : memoryOk (forwardHeld ack t) := by
  unfold forwardHeld
  repeat' first | exact h | exact memoryOk_relayNak _ _ h | exact memoryOk_performHeld h | split

theorem memoryOk_settle {t : State} (h : memoryOk t) : memoryOk (settle t) := (mild_settle (Mild.refl t)).memoryOk h

theorem memoryOk_resume {t : State} (ack : Bool) (h : memoryOk t) : memoryOk (resume ack t) := by
  unfold resume
  split
  · exact memoryOk_settle (memoryOk_forwardHeld _ (memoryOk_settle h))
  · exact memoryOk_settle h

theorem memoryOk_memoryPoll {t : State} (ack : Bool) (h : memoryOk t) : memoryOk (memoryPoll ack t) := by
  unfold memoryPoll pollAnswered
  split
  · split
    · refine memoryOk_settle ?_
      split
      · exact memoryOk_performHeld h
      · split
        · exact (mild_beginTransaction (Mild.refl t)).memoryOk h
        · exact h
    · exact memoryOk_resume _ ((mild_confirmWrite (Mild.refl t)).memoryOk h)
    · exact memoryOk_settle (memoryOk_performHeld h)
    · exact memoryOk_settle h
    · exact memoryOk_settle h
  · exact memoryOk_settle h

theorem memoryOk_failAttempt {t : State} (h : memoryOk t) : memoryOk (failAttempt t) :=
  (mild_failAttempt (Mild.refl t)).memoryOk h

theorem memoryOk_unstore {t : State} (h : memoryOk t) : memoryOk (unstore t) := by
  unfold unstore
  split
  · exact h
  · rename_i a old hp
    have hin := h.2.1
    unfold RecordWriter.inMemory at hin
    rw [hp, Bool.and_eq_true_iff] at hin
    exact memoryOk_store old h (of_decide_eq_true hin.2) rfl rfl

theorem memoryOk_takeMemoryFault {t : State} (h : memoryOk t) : memoryOk (takeMemoryFault t) := by
  have k : memoryOk (releaseHost (t.onLink fun l => { l with memFaults := bump 255 l.memFaults, lastWriter := .none })) := by
    have := memoryOk_onLink (f := fun l => { l with memFaults := bump 255 l.memFaults, lastWriter := .none }) h rfl (.inl rfl)
    unfold releaseHost
    split
    · exact memoryOk_nakHost _ this
    · exact this
  unfold takeMemoryFault
  dsimp only
  split
  · exact memoryOk_failAttempt k
  · exact memoryOk_failAttempt (memoryOk_unstore k)
  · exact k

/-- A write in progress begins within the memory. -/
theorem memoryOk_writing {t : State} {a : Nat} {d : List Byte} (h : memoryOk t) (hp : t.writer.phase = .writing a d) :
    a < memorySize := by
  have hin := h.2.1
  unfold RecordWriter.inMemory at hin
  rw [hp, Bool.and_eq_true_iff] at hin
  exact of_decide_eq_true hin.1

/-- A torn own write leaves the memory sound. -/
theorem memoryOk_tearWrite {t : State} {a : Nat} (d : List Byte) (h : memoryOk t) (ha : a < memorySize) :
    memoryOk (tearWrite a d t) := ⟨memWf_memStore _ h.1 ha, h.2.1, h.2.2⟩

theorem memoryOk_ownFailure {t : State} (at_ : NakAt) (ack : Bool) (h : memoryOk t) : memoryOk (ownFailure at_ ack t) := by
  unfold ownFailure
  split
  · exact memoryOk_resume _ (memoryOk_failAttempt (memoryOk_onLink h rfl (.inl rfl)))
  · exact memoryOk_resume _ (memoryOk_failAttempt (memoryOk_onLink h rfl (.inl rfl)))
  · rcases onExpiry_cases t.writer.limit t fun u => resume ack (failAttempt u) with e | ⟨x, _, e⟩ <;> rw [e]
    · exact h
    · exact memoryOk_resume _ (memoryOk_failAttempt ((mild_reach t x).memoryOk h))
  · exact memoryOk_settle h

theorem memoryOk_ownWriteStop {t : State} (h : memoryOk t) : memoryOk (ownWriteStop t) := by
  unfold ownWriteStop
  split
  · rename_i a d hp
    have ha := memoryOk_writing h hp
    refine ⟨memWf_memStore _ h.1 ha, ?_, h.2.2⟩
    simp [RecordWriter.inMemory, OwnPhase.inMemory, ha]
  · exact h

theorem memoryOk_readDone {t : State} (a : Nat) (h : memoryOk t) : memoryOk (readDone a t) := by
  have k := (mild_itemLeaves (Mild.refl _)).memoryOk
    (memoryOk_onLink (f := fun l => { l with tracked := some ((a + 64) % memorySize) }) h rfl (.inl rfl))
  unfold readDone
  dsimp only
  split
  · exact (mild_deliver _ _ _ (Mild.refl _)).memoryOk k
  · exact k

/-! ### Pages that are always vetoed -/

theorem guardRole_alwaysVetoed (s : State) {p : Nat} (h : alwaysVetoed p) : guardRole s p = .vetoed := by
  unfold alwaysVetoed at h
  unfold guardRole
  rcases h with h | h | h | h <;> (repeat' split) <;> first | rfl | omega

/-- No byte of a page in `P` differs between the two states' memories. -/
def PagesKept (P : Nat → Prop) (s t : State) : Prop := ∀ a, P (a / 64) → memRead t.link.mem a = memRead s.link.mem a

/-- No byte of a page that is always vetoed differs between the two states' memories. -/
abbrev VetoedKept (s t : State) : Prop := PagesKept alwaysVetoed s t

section
variable {P : Nat → Prop}

theorem PagesKept.refl (s : State) : PagesKept P s s := fun _ _ => rfl

theorem PagesKept.trans {s t u : State} (h : PagesKept P s t) (k : PagesKept P t u) : PagesKept P s u :=
  fun a ha => (k a ha).trans (h a ha)

theorem pagesKept_of_mem {s t : State} (h : t.link.mem = s.link.mem) : PagesKept P s t := fun a _ => by rw [h]

theorem Mild.pagesKept {s t : State} (h : Mild s t) : PagesKept P s t := pagesKept_of_mem (by rw [h.link])

/-- Bytes stored in a page whose role is passed. -/
theorem pagesKept_store {s t : State} {a : Nat} (data : List Byte) (hP : ∀ p, P p → guardRole s p = .vetoed)
    (hw : memWf s.link.mem = true) (ha : a < memorySize) (hr : guardRole s (a / 64) = .passed)
    (hm : t.link.mem = memStore s.link.mem a data) : PagesKept P s t := by
  intro b hb
  rw [hm]
  refine memRead_memStore_outside data hw ha fun e => ?_
  rw [← e, hP _ hb] at hr
  exact absurd hr (by decide)

theorem endTxn_mem (m : Marks) (e : WriteEnd) (t : State) : (endTxn m e t).link.mem = t.link.mem := by
  unfold endTxn
  split <;> rfl

theorem pagesKept_classedWrite {t : State} (hP : ∀ p, P p → guardRole t p = .vetoed) (m : Marks) {a : Nat} (data : List Byte)
    (e : WriteEnd) (h : memoryOk t) (ha : a < memorySize) : PagesKept P t (classedWrite m a data e t) := by
  unfold classedWrite
  split
  · exact pagesKept_of_mem (endTxn_mem _ _ _)
  · split
    · rename_i hr
      unfold passedWrite
      split
      · exact pagesKept_of_mem (endTxn_mem _ _ _)
      · have k : PagesKept P t (endTxn m e (storeHostWrite a data t)) :=
          pagesKept_store data hP h.1 ha hr (endTxn_mem _ _ _)
        unfold triggerRequest
        split
        · exact k.trans (mild_takeRequest _ (Mild.refl _)).pagesKept
        · exact k
    · exact pagesKept_of_mem (endTxn_mem _ _ _)

theorem pagesKept_hostWrite {t : State} (hP : ∀ p, P p → guardRole t p = .vetoed) (m : Marks) {a : Nat} (data : List Byte)
    (e : WriteEnd) (h : memoryOk t) (ha : a < memorySize) : PagesKept P t (hostWrite m a data e t) := by
  unfold hostWrite
  dsimp only
  split
  · exact pagesKept_of_mem (endTxn_mem _ _ _)
  · exact pagesKept_classedWrite (t := t.onLink _) hP _ _ _ (memoryOk_onLink h rfl (.inl rfl)) ha

/-- A host transaction leaves the pages alone whose role is vetoed as it is classified. -/
theorem pagesKept_perform {t : State} (hP : ∀ p, P p → guardRole t p = .vetoed) {x : HostTxn} (held : Bool) (h : memoryOk t)
    (hx : x.inMemory = true) : PagesKept P t (perform x held t) := by
  unfold perform
  dsimp only
  split
  · exact pagesKept_hostWrite hP _ _ _ h (of_decide_eq_true hx)
  · exact pagesKept_of_mem (endTxn_mem _ _ _)
  · exact pagesKept_of_mem (endTxn_mem _ _ _)
  · exact pagesKept_of_mem (endTxn_mem _ _ _)
  · exact pagesKept_of_mem (endTxn_mem _ _ _)

end

theorem vetoedKept_perform {t : State} {x : HostTxn} (held : Bool) (h : memoryOk t) (hx : x.inMemory = true) :
    VetoedKept t (perform x held t) := pagesKept_perform (fun _ => guardRole_alwaysVetoed t) held h hx

theorem vetoedKept_hostArrives {t : State} {x : HostTxn} (ack : Bool) (h : memoryOk t) (hx : x.inMemory = true) :
    VetoedKept t (hostArrives x ack t) := by
  unfold hostArrives
  repeat'
    first
      | exact PagesKept.refl t | exact pagesKept_of_mem rfl | exact pagesKept_of_mem (endTxn_mem _ _ _)
      | exact (mild_confirmIfAwaiting (Mild.refl t)).pagesKept.trans
          (vetoedKept_perform _ (memoryOk_confirmIfAwaiting h) hx)
      | split

theorem vetoedKept_settle {s t : State} (h : VetoedKept s t) : VetoedKept s (settle t) :=
  h.trans (mild_settle (Mild.refl t)).pagesKept

theorem vetoedKept_performHeld {t : State} (h : memoryOk t) : VetoedKept t (performHeld t) := by
  unfold performHeld
  split
  · exact PagesKept.refl t
  · rename_i x hx
    have := h.2.2
    rw [hx] at this
    exact vetoedKept_perform (t := t.onLink _) _ (memoryOk_onLink h rfl (.inr rfl)) this

theorem vetoedKept_forwardHeld {t : State} (ack : Bool) (h : memoryOk t) : VetoedKept t (forwardHeld ack t) := by
  unfold forwardHeld
  repeat'
    first
      | exact PagesKept.refl t | exact vetoedKept_performHeld h | exact pagesKept_of_mem (endTxn_mem _ _ _) | split

theorem vetoedKept_resume {t : State} (ack : Bool) (h : memoryOk t) : VetoedKept t (resume ack t) := by
  unfold resume
  split
  · exact vetoedKept_settle ((vetoedKept_settle (PagesKept.refl t)).trans (vetoedKept_forwardHeld _ (memoryOk_settle h)))
  · exact vetoedKept_settle (PagesKept.refl t)

theorem vetoedKept_memoryPoll {t : State} (ack : Bool) (h : memoryOk t) : VetoedKept t (memoryPoll ack t) := by
  unfold memoryPoll pollAnswered
  split
  · split
    · refine vetoedKept_settle ?_
      split
      · exact vetoedKept_performHeld h
      · split
        · exact (mild_beginTransaction (Mild.refl t)).pagesKept
        · exact PagesKept.refl t
    · exact (mild_confirmWrite (Mild.refl t)).pagesKept.trans
        (vetoedKept_resume _ ((mild_confirmWrite (Mild.refl t)).memoryOk h))
    · exact vetoedKept_settle (vetoedKept_performHeld h)
    · exact vetoedKept_settle (PagesKept.refl t)
    · exact vetoedKept_settle (PagesKept.refl t)
  · exact vetoedKept_settle (PagesKept.refl t)

/-- A failed attempt, and what resumes after it, from a state with the memory of `s`. -/
theorem vetoedKept_resume_failAttempt {s t : State} (ack : Bool) (h : memoryOk t) (hm : t.link.mem = s.link.mem) :
    VetoedKept s (resume ack (failAttempt t)) :=
  (pagesKept_of_mem hm).trans ((mild_failAttempt (Mild.refl t)).pagesKept.trans
    (vetoedKept_resume _ (memoryOk_failAttempt h)))

theorem vetoedKept_ownFailure {t : State} (at_ : NakAt) (ack : Bool) (h : memoryOk t) :
    VetoedKept t (ownFailure at_ ack t) := by
  unfold ownFailure
  split
  · exact vetoedKept_resume_failAttempt _ (memoryOk_onLink h rfl (.inl rfl)) rfl
  · exact vetoedKept_resume_failAttempt _ (memoryOk_onLink h rfl (.inl rfl)) rfl
  · rcases onExpiry_cases t.writer.limit t fun u => resume ack (failAttempt u) with e | ⟨x, _, e⟩ <;> rw [e]
    · exact PagesKept.refl t
    · exact vetoedKept_resume_failAttempt _ ((mild_reach t x).memoryOk h) rfl
  · exact vetoedKept_settle (PagesKept.refl t)

theorem vetoedKept_readDone (t : State) (a : Nat) : VetoedKept t (readDone a t) := by
  have k : VetoedKept t (itemLeaves (t.onLink fun l => { l with tracked := some ((a + 64) % memorySize) })) :=
    PagesKept.trans (pagesKept_of_mem rfl) (mild_itemLeaves (Mild.refl _)).pagesKept
  unfold readDone
  dsimp only
  split
  · exact k.trans (mild_deliver _ _ _ (Mild.refl _)).pagesKept
  · exact k

end Sys2Proof.Machine
end

