-- ==== Sys2Proof/Laws/PerInstr.lean ====
section
/-!
SUPPORT. The family SendsOk: a well-formed command names word addresses of the memory only (09, section 9.1). One lemma for each
constructor.
-/

namespace Sys2Proof

/-- The word address in an optional operand, as a list. -/
def addressList : Option Addr → List Addr
  | none => []
  | some a => [a]

/-- The word addresses that a command names. -/
def Instr.wordAddresses : Instr → List Addr
  | .hostPassedWrite a _ _ _ => [a]
  | .hostVetoedWrite a _ _ _ => [a]
  | .hostAddressProbe a _ => addressList a
  | .hostRandomRead a _ _ => [a]
  | .busError (.inWrite a _) => [a]
  | .busError (.inRead a _) => addressList a
  | .clockHoldLimit (.inWrite a _) => [a]
  | .clockHoldLimit (.inRead a _) => addressList a
  | _ => []

namespace Laws.SendsOk

/-- The command, if well formed, names addresses below 0x8000 only. -/
def Statement (i : Instr) : Prop := i.wellFormed = true → ∀ a ∈ i.wordAddresses, a.toNat < 32768

theorem one {a b : Addr} (h : addressOk a = true) (hb : b ∈ [a]) : b.toNat < 32768 := by
  rw [List.mem_singleton] at hb
  exact hb ▸ of_decide_eq_true h

theorem optional {a : Option Addr} {b : Addr} (h : addressOk? a = true) (hb : b ∈ addressList a) : b.toNat < 32768 := by
  cases a with
  | none => exact absurd hb List.not_mem_nil
  | some x => exact one h hb

theorem none_named {i : Instr} (h : i.wordAddresses = []) : Statement i := fun _ a ha => by
  rw [h] at ha
  exact absurd ha List.not_mem_nil

theorem powerOnReset : Statement .powerOnReset := none_named rfl

theorem rstReset : Statement .rstReset := none_named rfl

theorem resettingEnd : Statement .resettingEnd := none_named rfl

theorem pfwAssert : Statement .pfwAssert := none_named rfl

theorem pfwClear : Statement .pfwClear := none_named rfl

theorem clockSecond : Statement .clockSecond := none_named rfl

theorem entry : Statement .entry := none_named rfl

theorem validatorStrobe (answer : StrobeAnswer) : Statement (.validatorStrobe answer) := none_named rfl

theorem acceptEnd : Statement .acceptEnd := none_named rfl

theorem transitDeadlineExpiry (number : Nat) : Statement (.transitDeadlineExpiry number) := none_named rfl

theorem failedTransitReturn (number : Nat) : Statement (.failedTransitReturn number) := none_named rfl

theorem escinActive : Statement .escinActive := none_named rfl

theorem escinInactive : Statement .escinInactive := none_named rfl

theorem stringingTimeout : Statement .stringingTimeout := none_named rfl

theorem releaseStart : Statement .releaseStart := none_named rfl

theorem flapPulseEnd : Statement .flapPulseEnd := none_named rfl

theorem deadTimeEnd : Statement .deadTimeEnd := none_named rfl

theorem confirmationWindowExpiry : Statement .confirmationWindowExpiry := none_named rfl

theorem vaultin : Statement .vaultin := none_named rfl

theorem returnEvent : Statement .returnEvent := none_named rfl

theorem purgePulseStart : Statement .purgePulseStart := none_named rfl

theorem purgePulseEnd : Statement .purgePulseEnd := none_named rfl

theorem purgeEnd : Statement .purgeEnd := none_named rfl

theorem chargingStep : Statement .chargingStep := none_named rfl

theorem graceExpiry : Statement .graceExpiry := none_named rfl

theorem meterPulse : Statement .meterPulse := none_named rfl

theorem pipPatternTimer : Statement .pipPatternTimer := none_named rfl

theorem activateTariff (tag bank : Byte) (version : BitVec 16) : Statement (.activateTariff tag bank version) := none_named rfl

theorem keyEvent (key : Key) : Statement (.keyEvent key) := none_named rfl

theorem keyTake : Statement .keyTake := none_named rfl

theorem silenceTimeout : Statement .silenceTimeout := none_named rfl

theorem offHook : Statement .offHook := none_named rfl

theorem onHook : Statement .onHook := none_named rfl

theorem handsetLoss : Statement .handsetLoss := none_named rfl

theorem grantTimeout : Statement .grantTimeout := none_named rfl

theorem offhookHoldTimeout : Statement .offhookHoldTimeout := none_named rfl

theorem depositTimeout : Statement .depositTimeout := none_named rfl

theorem answerTimeout : Statement .answerTimeout := none_named rfl

theorem assumedAnswerTimeout : Statement .assumedAnswerTimeout := none_named rfl

theorem reversalPresent : Statement .reversalPresent := none_named rfl

theorem clearBack : Statement .clearBack := none_named rfl

theorem followOnWindowExpiry : Statement .followOnWindowExpiry := none_named rfl

theorem ackCalls (tag : Byte) (seq : BitVec 16) : Statement (.ackCalls tag seq) := none_named rfl

theorem guardEnd : Statement .guardEnd := none_named rfl

theorem dialToneQualified : Statement .dialToneQualified := none_named rfl

theorem dialToneTimeout : Statement .dialToneTimeout := none_named rfl

theorem loopLoss : Statement .loopLoss := none_named rfl

theorem toneOnEnd : Statement .toneOnEnd := none_named rfl

theorem toneOffEnd : Statement .toneOffEnd := none_named rfl

theorem decadicBreakEnd : Statement .decadicBreakEnd := none_named rfl

theorem decadicMakeEnd : Statement .decadicMakeEnd := none_named rfl

theorem interDigitPauseEnd : Statement .interDigitPauseEnd := none_named rfl

theorem acktoneDetection : Statement .acktoneDetection := none_named rfl

theorem doorOpen : Statement .doorOpen := none_named rfl

theorem doorClose : Statement .doorClose := none_named rfl

theorem boxEvent (present : Bool) : Statement (.boxEvent present) := none_named rfl

theorem serviceWindowExpiry : Statement .serviceWindowExpiry := none_named rfl

theorem openService (tag minutes : Byte) : Statement (.openService tag minutes) := none_named rfl

theorem closeService (tag : Byte) : Statement (.closeService tag) := none_named rfl

theorem clearBlock (tag reason : Byte) : Statement (.clearBlock tag reason) := none_named rfl

theorem tamperScan (raw : List (BitVec 16)) : Statement (.tamperScan raw) := none_named rfl

theorem haltTimeout (channel : Fin 6) : Statement (.haltTimeout channel) := none_named rfl

theorem reseedTamper (tag channels : Byte) : Statement (.reseedTamper tag channels) := none_named rfl

theorem contextSettlingExpiry : Statement .contextSettlingExpiry := none_named rfl

theorem loiterTimeout : Statement .loiterTimeout := none_named rfl

theorem contRestored : Statement .contRestored := none_named rfl

theorem quietTimeout (kind : IncidentKind) : Statement (.quietTimeout kind) := none_named rfl

theorem ackIncidents (tag : Byte) (seq : BitVec 16) : Statement (.ackIncidents tag seq) := none_named rfl

theorem testReport (tag : Byte) : Statement (.testReport tag) := none_named rfl

theorem retryTimeout : Statement .retryTimeout := none_named rfl

theorem readyToneTimeout : Statement .readyToneTimeout := none_named rfl

theorem kissoffTimeout : Statement .kissoffTimeout := none_named rfl

theorem hostPassedWrite (addr : Addr) (data : List Byte) (ending : WriteEnd) (ack : Bool) : Statement (.hostPassedWrite addr data ending ack) := fun h _ hb => one (Bool.and_eq_true_iff.mp h).1 hb

theorem hostVetoedWrite (addr : Addr) (data : List Byte) (ending : WriteEnd) (ack : Bool) : Statement (.hostVetoedWrite addr data ending ack) := fun h _ hb => one (Bool.and_eq_true_iff.mp h).1 hb

theorem hostAddressProbe (addr : Option Addr) (course : HostCourse) : Statement (.hostAddressProbe addr course) := fun h _ hb => optional h hb

theorem hostRandomRead (addr : Addr) (n : Nat) (course : HostCourse) : Statement (.hostRandomRead addr n course) := fun h _ hb => one (Bool.and_eq_true_iff.mp h).1 hb

theorem hostCurrentAddressRead (n : Nat) (course : HostCourse) : Statement (.hostCurrentAddressRead n course) := none_named rfl

theorem busError (at_ : BrokenAt) : Statement (.busError at_) := by
  cases at_ with
  | inAddress _ => exact none_named rfl
  | inWrite a _ => exact fun h _ hb => one h hb
  | inRead a _ => exact fun h _ hb => optional h hb

theorem clockHoldLimit (at_ : HoldPoint) : Statement (.clockHoldLimit at_) := by
  cases at_ with
  | atAcknowledge => exact none_named rfl
  | inAddress => exact none_named rfl
  | inWrite a _ => exact fun h _ hb => one h hb
  | inRead a _ => exact fun h _ hb => optional h hb

theorem ownTransactionStart (ack : Bool) : Statement (.ownTransactionStart ack) := none_named rfl

theorem ownWriteConfirmed : Statement .ownWriteConfirmed := none_named rfl

theorem ownReadComplete : Statement .ownReadComplete := none_named rfl

theorem memoryPoll (ack : Bool) : Statement (.memoryPoll ack) := none_named rfl

theorem memoryFault : Statement .memoryFault := none_named rfl

theorem ownAttemptFailure (x : OwnNak) : Statement (.ownAttemptFailure x) := none_named rfl

theorem setClock (tag : Byte) (day : BitVec 16) (seconds : BitVec 24) : Statement (.setClock tag day seconds) := none_named rfl

theorem reloadConfig (tag : Byte) : Statement (.reloadConfig tag) := none_named rfl

theorem endOfReset : Statement .endOfReset := none_named rfl

theorem ownWriteStop : Statement .ownWriteStop := none_named rfl

end Laws.SendsOk

end Sys2Proof
end

