-- ==== Sys2Proof/Tests/Slice0.lean ====
section
/-!
SUPPORT. Tests: ill-formed commands that WellFormed refuses; one or two small runs of a single step per command, with expected
values from the manual's worked sequences and tables (named at each test); and for every statement with hypotheses a witness,
concrete states that meet them clause by clause.
-/

namespace Sys2Proof.Tests

open Sys2Proof.Machine

/-! ### Small states -/

/-- The state after a command, or the state itself where the command stops. -/
def after (c : Instr) (s : State) : State :=
  match exec c s with
  | .next t => t
  | .fault _ => s
  | .refused _ => s

/-- After reset, in READY. -/
def ready : State := { State.reset with start := { Startup.zero with phase := .ready } }

/-- READY with the hook off, the call in state `c` and the line in state `l` with owner CALL. -/
def inCall (c : CallState) (l : LineState) : State :=
  { ready with
    call := { CallControl.zero with st := c, hook := .off }
    line := { Line.zero with owner := .call, st := l } }

/-- READY with the line in state `l` with owner REPORT, and the dialler in state `d`. -/
def reporting (d : DialState) (l : LineState) : State :=
  { ready with dial := { Dialler.zero with st := d }, line := { Line.zero with owner := .report, st := l } }

def withCoin (s : State) (c : CoinPath) : State := { s with coin := c }

def withTransit (s : State) (l : List Transit) : State := { s with coin := { s.coin with transit := l } }

def withEscrow (s : State) (l : List Escrow) : State := { s with coin := { s.coin with escrow := l } }

def withReasons (s : State) (r : Reasons) : State := { s with call := { s.call with reasons := r } }

def frozenBy : Reasons := { Reasons.empty with flapFault := true }

def jammed : Reasons := { Reasons.empty with slotJam := true }

/-- Class 2 is worth 20 mu and class 4 is worth 50 mu, as in 01, section 1.12.1. -/
def worked (s : State) : State :=
  { s with req := { s.req with cfg := { Settings.default with values := ⟨0, 20, 0, 50, 0, 0, 0, 0⟩ } } }

def entered : Transit := ⟨0, .entered, none, some 1000, false⟩

def accepted : Transit := ⟨0, .accepted, some 1, some 890, false⟩

def coin20 : Escrow := ⟨0, some 1, 20, .held, .credit⟩

def collecting : Escrow := ⟨0, some 1, 20, .releasingCollect, .committed⟩

def returning : Escrow := ⟨0, some 1, 20, .releasingReturn, .credit⟩

def heldOver : Escrow := ⟨0, some 1, 20, .releasingReturn, .heldOver⟩

def flight (c : Coil) (retry : Bool) : InFlight := ⟨c, retry, 500, 80⟩

/-- The band of 02, section 2.11.1: LOCAL, I = 30, P0 = 60, S = 20, U_peak = 15, U_off = 10, W = 2, G = 10. -/
def local45 : RatingContext := ⟨.a, 1, some 3, .localBand, false, 30, 60, 20, 15, 10, 0, 0, 0, 2, 10⟩

/-- The band of 02, section 2.11.3: METER, I = 0, V = 10, W = 3. -/
def meter10 : RatingContext := ⟨.a, 1, some 4, .meter, false, 0, 0, 0, 0, 0, 10, 0, 0, 3, 10⟩

def rated (s : State) (x : RatingContext) : State := { s with rate := { Rating.zero with ctx := some x } }

/-- A slot in use. -/
def slot : Slot := ⟨0, 3, Stamp.zero, 1, true, none, false, .unreported, false, 0, 0⟩

def withSlot (s : State) (k : IncidentKind) (x : Slot) : State :=
  { s with inc := { s.inc with slots := s.inc.slots.put k (some x) } }

/-- The head item of the queue is a vault update, and the record writer stands in phase `p`. -/
def writing (p : OwnPhase) : State :=
  { ready with writer := { RecordWriter.zero with queue := [.vaultUpdate], phase := p, begun := p != .idle } }

/-- A bank image's shadow with the prefixes of 03, section 3.6.1, that the tests use: 118, length 5 to 6, and 1, length 6 to 7. -/
def routes : List Route := [⟨[1], 1, 6, 7⟩, ⟨[1, 1, 8], 4, 5, 6⟩]

/-- COLLECT with those prefixes, the emergency list 112 and 999, and a buffer. -/
def dialling (b : List Nat) : State :=
  let s := inCall .collect .ready
  { s with
    tariff := { s.tariff with shadow := { Shadow.empty with routes := routes } }
    num := { s.num with buffer := b }
    req := { s.req with cfg := { Settings.default with emergency := [[1, 1, 2], [9, 9, 9]] } } }

/-! ### Ill-formed commands -/

theorem test_wf_transit_number : (Instr.transitDeadlineExpiry 256).wellFormed = false := by decide

theorem test_wf_returned_number : (Instr.failedTransitReturn 256).wellFormed = false := by decide

theorem test_wf_scan_counts : (Instr.tamperScan [1, 2, 3, 4, 5, 6]).wellFormed = false := by decide

theorem test_wf_passed_address : (Instr.hostPassedWrite 0x8000 [1] .stop true).wellFormed = false := by decide

theorem test_wf_passed_data : (Instr.hostPassedWrite 0x4000 [] .stop true).wellFormed = false := by decide

theorem test_wf_refused_address_data : (Instr.hostPassedWrite 0x4000 [1] .refusedAddress true).wellFormed = false := by decide

theorem test_wf_refused_byte : (Instr.hostPassedWrite 0x4000 [] .refusedByte true).wellFormed = true := by decide

theorem test_wf_vetoed_address : (Instr.hostVetoedWrite 0x8000 [1] .stop true).wellFormed = false := by decide

theorem test_wf_vetoed_data : (Instr.hostVetoedWrite 0x0190 [] .stop true).wellFormed = false := by decide

theorem test_wf_probe_address : (Instr.hostAddressProbe (some 0x8000) ⟨true, false⟩).wellFormed = false := by decide

theorem test_wf_read_address : (Instr.hostRandomRead 0x8000 1 ⟨true, false⟩).wellFormed = false := by decide

theorem test_wf_read_length : (Instr.hostRandomRead 0 0 ⟨true, false⟩).wellFormed = false := by decide

theorem test_wf_current_length : (Instr.hostCurrentAddressRead 0 ⟨true, false⟩).wellFormed = false := by decide

theorem test_wf_broken_write : (Instr.busError (.inWrite 0x8000 [])).wellFormed = false := by decide

theorem test_wf_broken_read : (Instr.busError (.inRead (some 0xFFFF) 0)).wellFormed = false := by decide

theorem test_wf_hold_point : (Instr.clockHoldLimit (.inRead (some 0x8000) 0)).wellFormed = false := by decide

theorem test_wf_hold_point_write : (Instr.clockHoldLimit (.inWrite 0x8000 [])).wellFormed = false := by decide

theorem test_wf_failed_byte : (Instr.ownAttemptFailure ⟨.atData 64, true⟩).wellFormed = false := by decide

theorem test_wf_last_address : (Instr.hostPassedWrite 0x7FFF [1] .stop true).wellFormed = true := by decide

theorem test_wf_last_number : (Instr.transitDeadlineExpiry 255).wellFormed = true := by decide

/-! ### Coin path (01, section 1.12.1: classes 2 and 4, P = 80, D = 30) -/

theorem test_entry : (after .entry ready).coin.transit = [entered] := by decide

theorem test_entry_table_full :
    ((after .entry (withTransit ready [entered, entered, entered])).inc.slots.slotForced).isSome = true := by decide

/-- At 90 the strobe of class 2 accepts, with a deadline of 800 ms. -/
theorem test_validatorStrobe :
    (after (.validatorStrobe (.classCode 1))
      { worked (withTransit (inCall .collect .ready) [entered]) with now := 90 }).coin.transit = [accepted] := by decide

theorem test_validatorStrobe_no_value :
    ((after (.validatorStrobe (.classCode 0)) (worked (withTransit (inCall .collect .ready) [entered]))).coin.transit.map (·.st))
      = [.diverted] := by decide

theorem test_acceptEnd :
    (after .acceptEnd { ready with pins := { Pins.zero with accept := true }, coin := { CoinPath.zero with acceptEnd := some 40 } }).pins.accept
      = false := by decide

theorem test_escinActive :
    (after .escinActive (withTransit (inCall .collect .ready) [accepted])).coin.transit.map (·.atSensor) = [true] := by decide

/-- At 270 the passage ends: e0 20 HELD CREDIT, E = 20. -/
theorem test_escinInactive :
    let s := worked (withCoin (inCall .collect .ready)
      { CoinPath.zero with transit := [{ accepted with atSensor := true, deadline := none }], passage := some ⟨some 0, false, 490⟩ })
    (after .escinInactive s).coin.escrow = [coin20] ∧ (after .escinInactive s).acct.e = 20 := by decide

theorem test_stringingTimeout :
    (after .stringingTimeout (withCoin ready { CoinPath.zero with passage := some ⟨none, false, 250⟩ })).inc.slots.stringing.isSome
      = true := by decide

/-- R7: a coin that does not reach the sensor is a jam. -/
theorem test_transitDeadlineExpiry :
    (after (.transitDeadlineExpiry 0) (withTransit ready [entered])).call.reasons.slotJam = true := by decide

/-- R20: the second failed return in a row blocks the chute. -/
theorem test_failedTransitReturn :
    (after (.failedTransitReturn 0)
      (withCoin ready { CoinPath.zero with transit := [{ accepted with st := .diverted }], failedReturns := 1 })).call.reasons.chuteBlocked
      = true := by decide

theorem test_releaseStart : (after .releaseStart (withEscrow ready [collecting])).pins.flapC = true := by decide

theorem test_releaseStart_held : (after .releaseStart (withEscrow ready [coin20])).pins.flapC = false := by decide

/-- At 80 P runs out, and D runs to 110. -/
theorem test_flapPulseEnd :
    let s := withCoin ready { CoinPath.zero with
      escrow := [collecting], flap := .pulse, inFlight := some (flight .collect false), pulseEnd := some 80 }
    (after .flapPulseEnd s).coin.flap = .window ∧ (after .flapPulseEnd s).coin.deadEnd = some 110 := by decide

theorem test_deadTimeEnd :
    (after .deadTimeEnd (withCoin ready { CoinPath.zero with flap := .settle, deadEnd := some 110 })).coin.flap = .idle := by decide

/-- At 120 VAULTIN confirms e0: the vault is told class 2, 20 mu. -/
theorem test_vaultin :
    let s := withCoin ready { CoinPath.zero with escrow := [collecting], flap := .window, inFlight := some (flight .collect false) }
    (after .vaultin s).coin.escrow = [] ∧ (after .vaultin s).vault.life.value = 20 ∧
      (after .vaultin s).vault.life.coins.v1 = 1 := by decide

theorem test_vaultin_stray : (after .vaultin ready).coin.strayVault = 1 := by decide

/-- 01, section 1.12.2: the second window's end raises FLAP_FAULT, and the coin is HELD COMMITTED. -/
theorem test_confirmationWindowExpiry :
    let s := withCoin ready { CoinPath.zero with escrow := [collecting], flap := .window, inFlight := some (flight .collect true) }
    (after .confirmationWindowExpiry s).call.reasons.flapFault = true ∧
      (after .confirmationWindowExpiry s).coin.escrow = [{ collecting with st := .held }] := by decide

theorem test_confirmationWindowExpiry_retry :
    (after .confirmationWindowExpiry (withCoin ready { CoinPath.zero with
      escrow := [collecting], flap := .window, inFlight := some (flight .collect false) })).pins.flapC = true := by decide

theorem test_returnEvent :
    (after .returnEvent (withTransit ready [{ accepted with st := .rejected }])).coin.transit = [] := by decide

theorem test_returnEvent_stray : (after .returnEvent ready).coin.strayReturns = 1 := by decide

def purging : State := { State.reset with start := { Startup.zero with phase := .purging }, coin := { CoinPath.zero with purgeNext := some 0 } }

theorem test_purgePulseStart : (after .purgePulseStart purging).pins.flapR = true := by decide

/-- R25: after the tenth pulse the last 800 ms of counting. -/
theorem test_purgePulseEnd :
    (after .purgePulseEnd { purging with
      coin := { CoinPath.zero with purgePulseEnd := some 80, purgeDone := 9 } }).coin.purgeLast = some 880 := by decide

theorem test_purgeEnd :
    (after .purgeEnd { purging with coin := { CoinPath.zero with purgeLast := some 880 } }).start.phase = .settling := by decide

/-! ### Rating (02, sections 2.4 and 2.11) -/

/-- The worked unit charges of 02, section 2.4. -/
theorem test_unit_charges :
    unitChargeExact 45 20 5 = 15 ∧ unitChargeExact 24 20 5 = 10 ∧ unitChargeExact 13 45 2 = 10 ∧ unitChargeExact 7 10 1 = 2 ∧
      unitChargeExact 0 30 5 = 0 ∧ unitChargeExact 99999 600 100 = 1000000 := by decide

/-- 02, section 2.11.1, at 60 s: B 10, coin 50 collected, B 45. -/
theorem test_chargingStep :
    let s := { rated (inCall .connected .answered) local45 with
      acct := { Account.zero with b := 10, e := 50, c := 30 }
      rate := { ctx := some local45, nextStep := some 60000, graceEnd := none } }
    let t := after .chargingStep (withEscrow s [{ coin20 with value := 50 }])
    t.acct.b = 45 ∧ t.acct.e = 0 ∧ t.acct.c = 45 ∧ t.acct.units = 1 ∧ t.rate.nextStep = some 80000 := by decide

/-- The same call at 140 s: nothing left to collect, GRACE until 150 s with O = 15. -/
theorem test_chargingStep_grace :
    let s := { rated (inCall .connected .answered) local45 with
      acct := { Account.zero with c := 90, units := 4, lowCredit := true }
      rate := { ctx := some local45, nextStep := some 140000, graceEnd := none } }
    let t := after .chargingStep s
    t.call.st = .grace ∧ t.acct.o = 15 ∧ t.acct.c = 105 ∧ t.rate.graceEnd = some 150000 := by decide

/-- 02, section 2.11.2, at 16 s: O = 25 goes to shortfall. -/
theorem test_graceExpiry :
    let s := { rated (inCall .grace .answered) local45 with
      acct := { Account.zero with c := 45, o := 25, units := 3 }
      rate := { ctx := some local45, nextStep := some 18000, graceEnd := some 16000 } }
    (after .graceExpiry s).call.lastCause = .creditExhausted ∧ (after .graceExpiry s).call.st = .parked := by decide

/-- 02, section 2.11.3: pulse 1 collects 50. -/
theorem test_meterPulse :
    let s := { rated (inCall .connected .answered) meter10 with acct := { Account.zero with e := 70 } }
    let t := after .meterPulse (withEscrow s [{ coin20 with value := 50 }, { coin20 with seq := 1 }])
    t.acct.b = 40 ∧ t.acct.e = 20 ∧ t.acct.c = 10 ∧ t.acct.units = 1 := by decide

theorem test_pipPatternTimer :
    (after .pipPatternTimer { inCall .grace .answered with pipGen := ⟨.fast, true, some 200⟩ }).pipGen = ⟨.fast, false, some 400⟩ := by
  decide

/-! ### Keys, number and call (03, section 3.6.1; 04) -/

theorem test_keyEvent : (after (.keyEvent .star) ready).num.keys = [.star] := by decide

theorem test_keyEvent_full :
    (after (.keyEvent .star) { ready with num := { NumberAnalyser.zero with keys := List.replicate 8 .hash } }).num.dropped = 1 := by decide

/-- Keys 9, 9, 8: NO_ROUTE at once, the buffer emptied. -/
theorem test_keyTake_noRoute :
    let s := dialling [9, 9]
    let t := after .keyTake { s with num := { s.num with keys := [.digit 8] } }
    t.num.buffer = [] ∧ t.num.refused = 1 ∧ t.num.lastRefusal = .noRoute := by decide

/-- Keys 1, 1, 2: EMERGENCY at once. -/
theorem test_keyTake_emergency :
    let s := dialling [1, 1]
    (after .keyTake { s with num := { s.num with keys := [.digit 2] } }).call.kind = .emergency := by decide

/-- 4 s of silence with 118 in the buffer: below the minimum of 5. -/
theorem test_silenceTimeout :
    let s := dialling [1, 1, 8]
    (after .silenceTimeout { s with num := { s.num with silenceEnd := some 4000 } }).num.lastRefusal = .noRoute := by decide

theorem test_offHook :
    let s := { ready with line := { Line.zero with st := .released } }
    (after .offHook s).call.st = .seizing ∧ (after .offHook s).line.owner = .call ∧ (after .offHook s).pins.seize = true := by decide

theorem test_onHook : (after .onHook (inCall .collect .ready)).call.st = .idle := by decide

theorem test_handsetLoss :
    let t := after .handsetLoss (inCall .collect .ready)
    t.call.lastCause = .handsetLost ∧ t.inc.slots.cordCut.isSome = true := by decide

theorem test_contRestored :
    (after .contRestored (withSlot ready .cordCut slot)).inc.slots.cordCut.map (·.active) = some false := by decide

theorem test_grantTimeout :
    let s := inCall .seizing .seizing
    (after .grantTimeout { s with call := { s.call with grantEnd := some 10000 } }).call.lastCause = .noDialtone := by decide

theorem test_offhookHoldTimeout :
    let s := inCall .collect .ready
    (after .offhookHoldTimeout { s with call := { s.call with holdEnd := some 90000 } }).call.holdFlag = true := by decide

theorem test_depositTimeout :
    let s := inCall .awaitDeposit .ready
    (after .depositTimeout { s with call := { s.call with depositEnd := some 30000 } }).num.lastRefusal = .noDeposit := by decide

theorem test_answerTimeout :
    let s := inCall .ringing .awaitAnswer
    (after .answerTimeout { s with call := { s.call with answerEnd := some 180000 } }).call.lastCause = .noAnswer := by decide

theorem test_assumedAnswerTimeout :
    let s := rated (inCall .ringing .awaitAnswer) { local45 with initial := 0 }
    let t := after .assumedAnswerTimeout { s with call := { s.call with assumedEnd := some 20000 } }
    t.call.st = .connected ∧ t.rate.nextStep = some 80000 := by decide

theorem test_reversalPresent :
    (after .reversalPresent (rated (inCall .ringing .awaitAnswer) meter10)).line.st = .answered := by decide

theorem test_clearBack :
    let s := rated (inCall .connected .answered) meter10
    let t := after .clearBack { s with line := { s.line with reversal := true } }
    t.call.st = .afterCall ∧ t.call.followEnd = some 10000 := by decide

/-- On an UNSUPERVISED line the call stays (04, R78). -/
theorem test_clearBack_unsupervised :
    let s := rated (inCall .connected .answered) meter10
    let t := after .clearBack { s with
      line := { s.line with reversal := true }
      req := { s.req with cfg := { Settings.default with supervision := .unsupervised } } }
    t.call.st = .connected ∧ t.line.reversal = false := by decide

theorem test_followOnWindowExpiry :
    let s := inCall .afterCall .answered
    (after .followOnWindowExpiry { s with call := { s.call with followEnd := some 10000 } }).call.lastCause = .farCleared := by decide

/-! ### Line and sender (05, section 5.9.1: the decadic number 203) -/

theorem test_guardEnd :
    (after .guardEnd { ready with line := { Line.zero with guardEnd := some 1000 } }).line.st = .released := by decide

theorem test_dialToneQualified : (after .dialToneQualified (inCall .seizing .seizing)).call.st = .collect := by decide

theorem test_dialToneTimeout :
    let s := inCall .seizing .seizing
    (after .dialToneTimeout { s with line := { s.line with dialToneEnd := some 5000 } }).line.seizeFails = 1 := by decide

/-- R35, R36: with nothing to pay with, an I of 0 leaves the low-credit flag of a LOCAL call, not of a METER call. -/
theorem test_answer_initial_zero :
    (startCharging .reversal (rated ready { local45 with initial := 0, delay := 1 })).acct.lowCredit = false ∧
      (startCharging .reversal (rated ready meter10)).acct.lowCredit = true := by decide

theorem test_loopLoss : (after .loopLoss (inCall .connected .answered)).line.lineLosses = 1 := by decide

theorem test_toneOnEnd :
    let s := inCall .dialling .sending
    (after .toneOnEnd { s with line := { s.line with queue := [5], phase := .toneOn, phaseEnd := some 70 } }).line.phaseEnd = some 140 := by
  decide

/-- The last digit's off-time ends: sending is over, and the call rings. -/
theorem test_toneOffEnd :
    let s := inCall .dialling .sending
    let t := after .toneOffEnd { s with line := { s.line with queue := [5], phase := .toneOff, phaseEnd := some 140 } }
    t.line.st = .awaitAnswer ∧ t.call.st = .ringing := by decide

def decadic (q : List Nat) (p : SendPhase) (n e : Nat) : State :=
  let s := inCall .dialling .sending
  { s with line := { s.line with mode := .decadic, queue := q, phase := p, breaks := n, phaseEnd := some e } }

/-- At 60 the make; at 100 the second break; at 200 digit 2 is complete and the pause runs to 900; then digit 0, ten breaks. -/
theorem test_decadicBreakEnd :
    (after .decadicBreakEnd (decadic [2, 0, 3] .breaking 2 60)).line.phaseEnd = some 100 := by decide

theorem test_decadicMakeEnd : (after .decadicMakeEnd (decadic [2, 0, 3] .making 2 100)).pins.seize = false := by decide

theorem test_decadicMakeEnd_pause :
    let t := after .decadicMakeEnd (decadic [2, 0, 3] .making 1 200)
    t.line.queue = [0, 3] ∧ t.line.phaseEnd = some 900 := by decide

theorem test_interDigitPauseEnd : (after .interDigitPauseEnd (decadic [0, 3] .pause 0 900)).line.breaks = 10 := by decide

/-- With no slot to report the test message of station 0 is loaded: 0, *, 0000, # (08, section 8.5). -/
theorem test_acktoneDetection :
    let s := reporting .awaitReady .awaitAnswer
    (after .acktoneDetection { s with dial := { s.dial with station := [0] } }).line.queue = [0, 10, 0, 0, 0, 0, 11] := by decide

/-! ### Vault (06, section 6.10: a visit) -/

def visit (d : DoorSession) (b : BoxPhase) : State :=
  { ready with vault := { Vault.zero with
      life := ⟨⟨0, 1701, 0, 1100, 0, 0, 0, 0⟩, 12, 89020⟩, base := ⟨⟨0, 900, 0, 600, 0, 0, 0, 0⟩, 0, 48000⟩
      collSeq := 88, windowEnd := some 600000, doorOpen := true, session := d, boxPhase := b, openedAt := 40000 } }

theorem test_doorOpen :
    let s := visit .closed .inPlace
    (after .doorOpen { s with vault := { s.vault with doorOpen := false } }).vault.session = .authorised := by decide

/-- At 640 s: collection 89 with class 2: 801, strays 12, value 41,020; the baseline is 1,701, 1,100 and 89,020. -/
theorem test_doorClose :
    let t := after .doorClose { visit .authorised .exchanged with now := 640000 }
    t.vault.summary = some ⟨89, 41020, .collection⟩ ∧ t.vault.base = ⟨⟨0, 1701, 0, 1100, 0, 0, 0, 0⟩, 12, 89020⟩ ∧
      t.vault.fill = 0 ∧ t.vault.session = .closed := by decide

theorem test_boxEvent : (after (.boxEvent false) (visit .authorised .inPlace)).vault.boxPhase = .out := by decide

theorem test_serviceWindowExpiry :
    (after .serviceWindowExpiry (visit .authorised .exchanged)).inc.slots.vaultOvertime.isSome = true := by decide

/-! ### Tamper (07, section 7.9.1: a pull at the cord entry) -/

def resting : Channel := { Channel.zero with raw := 18000, f := 18000, b := 18000, fc := 18000 }

def running : State :=
  { ready with tamper := { Tamper.zero with
      settling := .running, ref := ⟨18000, 18000, 18000, 0⟩, ch := Six.all resting, lastScan := some 0 } }

def pull (r : BitVec 16) : List (BitVec 16) := [18000, 18000, 18000, r, 18000, 18000, 18000]

/-- At 40 ms: r 18,600, f 18,150, b 18,000, d 150, rising 1. -/
theorem test_tamperScan :
    let c := (after (.tamperScan (pull 18600)) running).tamper.ch.v2
    c.f = 18150 ∧ c.b = 18000 ∧ c.d = 150 ∧ c.rising = 1 ∧ c.level = .quiet := by decide +kernel

/-- At 80 ms: f 18,262, b 18,001, d 261: NEAR, and the halt timer starts. -/
theorem test_tamperScan_second :
    let c := (after (.tamperScan (pull 18600)) (after (.tamperScan (pull 18600)) running)).tamper.ch.v2
    c.f = 18262 ∧ c.b = 18001 ∧ c.d = 261 ∧ c.level = .near ∧ c.haltStart = some 80 := by decide +kernel

/-- 07, section 7.9.2: at 120 s the halt timer reseeds channel 6. -/
theorem test_haltTimeout :
    let c := (after (.haltTimeout 5) { running with tamper := { running.tamper with ch := { running.tamper.ch with
      v5 := { resting with f := 18200, fc := 18200, d := 200, level := .near, haltStart := some 0 } } } }).tamper.ch.v5
    c.b = 18200 ∧ c.d = 0 ∧ c.level = .quiet ∧ c.reseeds = 1 := by decide

theorem test_contextSettlingExpiry :
    (after .contextSettlingExpiry { running with
      tamper := { running.tamper with inForce := .inUse, settleEnd := some 5000 } }).tamper.inForce = .idle := by decide

theorem test_loiterTimeout :
    (after .loiterTimeout { running with tamper := { running.tamper with loiter := .running 0 } }).inc.slots.slotProbe.isSome
      = true := by decide

/-! ### Incidents and reports (08, section 8.8) -/

theorem test_quietTimeout :
    ((after (.quietTimeout .vaultPry) (withSlot ready .vaultPry { slot with active := false, quietEnd := some 42000 })).inc.slots.vaultPry).map
      (·.closedPending) = some true := by decide

theorem test_retryTimeout :
    (after .retryTimeout { ready with dial := { Dialler.zero with st := .retryWait, attempts := 1, retryEnd := some 35000 } }).dial.reason
      = .noNumber := by decide

theorem test_readyToneTimeout :
    let s := reporting .awaitReady .awaitAnswer
    (after .readyToneTimeout { s with dial := { s.dial with handEnd := some 20000 } }).dial.reason = .noReadyTone := by decide

theorem test_kissoffTimeout :
    let s := reporting .awaitKissoff .answered
    (after .kissoffTimeout { s with dial := { s.dial with handEnd := some 5000, attempts := 3 } }).dial.st = .idle := by decide

/-! ### Resets, clock and requests (10) -/

/-- R184: the halves of the number past its length are code 15. -/
theorem test_interruptedBody :
    let body := interruptedBody ((List.replicate 9 0#8 ++ [3#8, 0x12#8, 0x34#8]) ++ List.replicate 52 0#8)
    (body.drop 9).take 4 = [3#8, 0x12#8, 0x3F#8, 0xFF#8] := by decide

theorem test_powerOnReset : (after .powerOnReset (inCall .connected .answered)).call.st = .idle := by decide

theorem test_rstReset :
    (after .rstReset { ready with clock := ⟨3, 500, true, some 1000⟩ }).clock = ⟨3, 500, true, some 1000⟩ := by decide

theorem test_endOfReset : (after .endOfReset (after .rstReset ready)).start.resettingEnd = some 16 := by decide

/-- R181: step 1 of SCANNING begins with the read of page 3. -/
theorem test_resettingEnd :
    let t := after .resettingEnd State.reset
    t.start.phase = .scanning ∧ t.start.step = 1 ∧ t.writer.queue = [.read .config 3] := by decide

theorem test_pfwAssert : (after .pfwAssert ready).pfw = true := by decide

theorem test_pfwClear : (after .pfwClear { ready with pfw := true }).pfw = false := by decide

/-- R180: after 86,399 the seconds are 0 and the day 65,535 wraps to 0. -/
theorem test_clockSecond :
    (after .clockSecond { ready with clock := ⟨65535, 86399, true, some 1000⟩ }).clock = ⟨0, 0, true, some 2000⟩ := by decide

theorem test_setClock : (after (.setClock 7 3 500) ready).clock = ⟨3, 500, true, some 1000⟩ := by decide

theorem test_setClock_bad : (after (.setClock 7 3 86400) ready).req.lastResult = 3 := by decide

theorem test_openService : (after (.openService 1 10) ready).vault.windowEnd = some 600000 := by decide

theorem test_closeService : (after (.closeService 1) (after (.openService 1 10) ready)).req.lastCode = 2 := by decide

theorem test_activateTariff :
    let t := after (.activateTariff 1 1 41) ready
    t.tariff.activation = .validating ∧ t.writer.queue = [.read .bank 42] := by decide

theorem test_reloadConfig : (after (.reloadConfig 0x31) ready).req.reload = .reading := by decide

theorem test_ackCalls :
    let s := { ready with call := { CallControl.zero with nextSeq := 10, lastFinal := 9, ackedSeq := 4 } }
    (after (.ackCalls 1 9) s).call.ackedSeq = 9 ∧ (after (.ackCalls 1 10) s).req.lastResult = 3 := by decide

theorem test_ackIncidents :
    (after (.ackIncidents 1 299) { ready with inc := { Incidents.zero with nextLog := 300, lastLog := 299, ackedLog := 290 } }).inc.ackedLog
      = 299 := by decide

theorem test_testReport : (after (.testReport 1) ready).dial.outcome = .failed := by decide

theorem test_clearBlock :
    (after (.clearBlock 1 0) (withReasons { ready with tamper := { Tamper.zero with context := .service } } jammed)).call.reasons.slotJam
      = false := by decide

theorem test_clearBlock_refused : (after (.clearBlock 1 0) (withReasons ready jammed)).req.lastResult = 4 := by decide

theorem test_reseedTamper : (after (.reseedTamper 1 0x40) running).tamper.ch.v5.reseeds = 1 := by decide

/-! ### Memory link (09, section 9.7.1) -/

/-- Eight bytes written from 0x0190, in vault page A: nothing stored, the veto counted. -/
theorem test_hostVetoedWrite :
    let t := after (.hostVetoedWrite 0x0190 [1, 2, 3, 4, 5, 6, 7, 8] .stop true)
      { ready with link := { Link.zero with vetoes := 5, tracked := some 0x3A90, hostPtr := 0x3A90 } }
    t.link.mem = [] ∧ t.link.tracked = some 0x0190 ∧ t.link.hostPtr = 0x0198 ∧ t.link.vetoes = 6 ∧ t.link.lastVetoed = 0x0190 ∧
      t.link.status = .vetoed := by decide

/-- A write wraps within its page. -/
theorem test_hostPassedWrite :
    (after (.hostPassedWrite 0x3ABF [1, 2] .stop true) ready).link.mem = [(0x3A80, 2#8), (0x3ABF, 1#8)] := by decide

/-- A request arrives through the request page: SET_CLOCK for day 3, second 500. -/
theorem test_hostPassedWrite_request :
    (after (.hostPassedWrite 0x0040 [1, 7, 0, 3, 0, 1, 244] .stop true) ready).clock.sec = 500 := by decide

theorem test_hostAddressProbe : (after (.hostAddressProbe none ⟨true, false⟩) ready).link.status = .passing := by decide

theorem test_hostRandomRead :
    let t := after (.hostRandomRead 0x0000 2 ⟨true, false⟩) ready
    t.link.hostData = [0#8, 64#8] ∧ t.link.hostPtr = 2 := by decide

/-- R173: a read that a repeated start ends has no status yet. -/
theorem test_hostRandomRead_again :
    let t := after (.hostRandomRead 0x3A90 2 ⟨true, true⟩) ready
    t.link.status = .idle ∧ t.link.openTxn = some ⟨false, false⟩ := by decide

/-- The current-address read that follows the vetoed write gives 4 bytes from 0x0198. -/
theorem test_hostCurrentAddressRead :
    let t := after (.hostCurrentAddressRead 4 ⟨true, false⟩)
      { ready with link := { Link.zero with mem := [(0x0198, 9#8)], tracked := some 0x0190, hostPtr := 0x0198 } }
    t.link.hostData = [9#8, 255#8, 255#8, 255#8] ∧ t.link.tracked = some 0x019C := by decide

/-- The complete bytes of a passed write are stored; a held transaction leaves the pointer unknown (09, R165, its table). -/
theorem test_busError :
    let t := after (.busError (.inWrite 0x3A90 [1])) ready
    let u := after (.busError (.inAddress false))
      { ready with link := { Link.zero with tracked := some 5, hostPtr := 5, held := some (.probe none false) } }
    t.link.mem = [(0x3A90, 1#8)] ∧ t.link.status = .busError ∧ u.link.tracked = none ∧ u.link.hostPtr = 5 := by decide

/-- The device address acknowledged before the bus error confirms the own write (09, R170). -/
theorem test_busError_confirms :
    (after (.busError (.inAddress true)) (writing .awaiting)).writer.queue = [] := by decide +kernel

theorem test_clockHoldLimit :
    (after (.clockHoldLimit .atAcknowledge) { ready with link := { Link.zero with held := some (.probe none false) } }).link.status = .held := by
  decide

/-- R161, R168: the bytes of a write that the hold limit cuts enter the request-page image, and trigger nothing. -/
theorem test_clockHoldLimit_write :
    let t := after (.clockHoldLimit (.inWrite 0x0040 [1, 7])) ready
    t.link.image.take 2 = [1#8, 7#8] ∧ t.req.st = .idle := by decide

theorem test_ownTransactionStart :
    (after (.ownTransactionStart false) (writing .idle)).writer.phase = .polling := by decide

theorem test_ownWriteStop :
    (after .ownWriteStop (writing (.writing 0x180 [1, 2]))).link.mem = [(0x180, 1#8), (0x181, 2#8)] := by decide

theorem test_ownWriteConfirmed : (after .ownWriteConfirmed (writing .awaiting)).writer.queue = [] := by decide

/-- The first page of the configuration block has been read, and the second is asked for. -/
theorem test_ownReadComplete :
    (after .ownReadComplete { after .resettingEnd State.reset with
      writer := { RecordWriter.zero with queue := [.read .config 3], phase := .reading 0xC0, begun := true } }).writer.queue
      = [.read .config 4] := by decide

theorem test_memoryPoll : (after (.memoryPoll true) (writing .awaiting)).writer.queue = [] := by decide

theorem test_memoryFault :
    let s := writing .polling
    let t := after .memoryFault { s with writer := { s.writer with limit := some 10 } }
    t.link.memFaults = 1 ∧ t.writer.tries = 1 ∧ t.now = 10 := by decide

theorem test_ownAttemptFailure :
    let s := writing (.reading 0xC0)
    (after (.ownAttemptFailure ⟨.inAddress, true⟩) { s with writer := { s.writer with tries := 2 } }).writer.dropped = 1 := by decide

/-! ### Witnesses

For each statement, by its name: concrete states and operands that meet the hypotheses of each of its clauses, with values at
the bounds. A clause without hypotheses on the state needs none. -/

def queued (c : Instr) (s : State) : State := { s with pending := [c] }

/-- Line and sender states. -/
def lined (f : Line → Line) (s : State) : State := { s with line := f s.line }

def vaulted (f : Vault → Vault) (s : State) : State := { s with vault := f s.vault }

def linked (f : Link → Link) (s : State) : State := { s with link := f s.link }

theorem witness_StepRunsFrontCommand :
    (queued .entry ready).pending = .entry :: [] ∧ ready.pending = [] := by decide

theorem witness_CommandsGoOn :
    Instr.entry.wellFormed = true ∧ exec .entry ready = .next (after .entry ready) ∧
      step (queued .entry ready) = .next (after .entry ready) := ⟨rfl, rfl, rfl⟩

theorem witness_AddressOutsideMemoryFaults :
    ready.start.phase ≠ .resetting ∧ 0x8000 ≤ (0x8000#16 : Addr).toNat ∧ 0x8000 ≤ (0xFFFF#16 : Addr).toNat ∧
      exec (.clockHoldLimit (.inWrite 0x8000 [])) ready = .fault .hostAddressOutsideMemory := ⟨by decide, by decide, by decide, rfl⟩

theorem witness_StepKeepsMemoryForm :
    let c := Instr.hostPassedWrite 0x7FFF [1#8] .stop true
    memoryOk (queued c ready) ∧ step (queued c ready) = .next (after c ready) := ⟨⟨rfl, rfl, rfl⟩, rfl⟩

theorem witness_StepNeverDrivesBothCoils :
    let s := withEscrow ready [collecting]
    oneCoil (queued .releaseStart s) ∧ step (queued .releaseStart s) = .next (after .releaseStart s) :=
  ⟨fun h => Bool.noConfusion h.1, rfl⟩

/-- Two entries, the table's bound but one, and the step that fills it; the quotas filled, and one item too many. -/
theorem witness_StepKeepsCapacities :
    let s := withTransit ready [entered, { entered with number := 1 }]
    let q (l : List Item) : State := { s with writer := { RecordWriter.zero with queue := l } }
    (withinCapacity (queued .entry s) ∧ step (queued .entry s) = .next (after .entry s)) ∧
      withinCapacity (q [.vaultUpdate, .vaultUpdate, .response []]) ∧ ¬ withinCapacity (q [.response [], .response []]) :=
  ⟨⟨⟨by decide, by decide, by decide, by decide, by decide, by decide, fun p => by cases p <;> decide⟩, rfl⟩,
    ⟨by decide, by decide, by decide, by decide, by decide, by decide, fun p => by cases p <;> decide⟩,
    fun h => absurd (h.2.2.2.2.2.2 .request) (by decide)⟩

/-- Both sides of the gate: closed in READY with the hook on, open in COLLECT. -/
theorem witness_GateFollowsRule :
    exec .entry ready = .next (after .entry ready) ∧ (after .entry ready).pins.slotGate = false ∧
      exec .entry (inCall .collect .ready) = .next (after .entry (inCall .collect .ready)) ∧
      (after .entry (inCall .collect .ready)).pins.slotGate = true := ⟨rfl, by decide, rfl, by decide⟩

/-- MUTE on with owner REPORT, PIP on in GRACE. -/
theorem witness_MuteAndPipFollowRules :
    exec .entry (reporting .awaitReady .awaitAnswer) = .next (after .entry (reporting .awaitReady .awaitAnswer)) ∧
      (after .entry (reporting .awaitReady .awaitAnswer)).pins.mute = true ∧
      exec .entry (inCall .grace .answered) = .next (after .entry (inCall .grace .answered)) ∧
      (after .entry (inCall .grace .answered)).pins.pip = true ∧
      (after .entry (inCall .grace .answered)).pipGen.mode = .fast ∧
      exec .entry ready = .next (after .entry ready) ∧ (after .entry ready).pipGen.mode = .off :=
  ⟨rfl, by decide, rfl, by decide, by decide, rfl, by decide⟩

theorem witness_RefreshAndPipPattern :
    (let s := { inCall .grace .answered with pipGen := ⟨.fast, true, some 200⟩ }
     pipModeNow s ≠ .off ∧ pipModeNow s = s.pipGen.mode) ∧
      (let s := inCall .grace .answered; pipModeNow s ≠ s.pipGen.mode ∧ pipModeNow s ≠ .off) ∧
      (let s := { ready with pipGen := ⟨.slow, true, some 200⟩ }; pipModeNow s = .off) ∧
      (let s := { inCall .grace .answered with pipGen := ⟨.fast, true, some 200⟩ }
       s.start.rstHeld = false ∧ s.pipGen.next = some 200 ∧ s.pipGen.high = true) ∧
      (let s := { inCall .grace .answered with pipGen := ⟨.fast, false, some 400⟩ }
       s.start.rstHeld = false ∧ s.pipGen.next = some 400 ∧ s.pipGen.high = false) := by decide

theorem witness_SettleFrameAndRest :
    formContext ready = ready.tamper.context ∧ ready.dial.react = false ∧ leaving ready = none ∧ ready.call.heldRecords = [] ∧
      ready.vault.held = [] ∧ ready.req.heldResponse = none ∧ ready.req.wantRead = none ∧ ready.tariff.heldSwitch = false ∧
      ready.tariff.wantRead = none ∧ ready.start.want = none ∧
      (let done : Slot := { slot with closedPending := true, report := .reported }
       let s := withSlot (withSlot ready .slotJam done) .vaultPry { done with seq := slot.seq + 1 }
       s.inc.slots.get .slotJam = some done ∧ s.inc.slots.get .vaultPry = some { done with seq := slot.seq + 1 } ∧
         newer (slot.seq + 1) done.seq = true ∧ s.inc.unacked < 64 ∧ itemsOf .incident s.writer.queue < 6 ∧
         leaving s = some (.slotJam, done)) ∧
      (let i (n : Nat) : Item := .incident n []
       6 ≤ itemsOf .incident [i 0, i 1, i 2, i 3, i 4, i 5] ∧
         64 ≤ ({ ready.inc with nextLog := 64, ackedLog := 65535 } : Incidents).unacked) := by decide

theorem witness_SettleFrameAndRest_quotas : quotasKept ready.writer.queue := fun p => by cases p <;> decide

/-- ENTRY with 2 and with 3 entries, and before the purge's end; the deadlines of an ENTERED, an ACCEPTED and a DIVERTED coin
behind another. -/
theorem witness_TransitEntries :
    let one := { entered with number := 1 }
    (State.reset.start.rstHeld = false ∧ State.reset.start.phase ≠ .settling ∧ State.reset.start.phase ≠ .ready) ∧
      (ready.start.rstHeld = false ∧ ready.start.phase = .ready) ∧
      (withTransit ready [entered, one]).coin.transit.length < 3 ∧
      3 ≤ (withTransit ready [entered, one, { one with number := 2 }]).coin.transit.length ∧
      (withTransit ready [entered, one]).coin.transit = [entered] ++ one :: [] ∧ (∀ y ∈ [entered], y.number ≠ one.number) ∧
      one.deadline = some 1000 ∧ one.st = .entered ∧
      accepted.deadline = some 890 ∧ accepted.st = .accepted ∧ accepted.atSensor = false ∧
      (let d := { accepted with st := .diverted }
       (withTransit ready [d]).coin.transit = [] ++ d :: [] ∧ d.deadline = some 890 ∧ d.st = .diverted ∧
         (withTransit ready [d]).coin.failedReturns = 0 ∧
         1 ≤ (withCoin ready { CoinPath.zero with transit := [d], failedReturns := 1 }).coin.failedReturns) := by decide

/-- A strobe with no ENTERED entry, and one that decides the entry behind an ACCEPTED one: class 1 is routed, class 0 not. -/
theorem witness_StrobeAndAccept :
    let s := worked (withTransit (inCall .collect .ready) [accepted, { entered with number := 1 }])
    (State.reset.start.rstHeld = false ∧ State.reset.start.phase = .resetting) ∧
      ready.start.rstHeld = false ∧ ready.start.phase ≠ .resetting ∧ ready.start.phase ≠ .scanning ∧
      (∀ y ∈ (withTransit ready [accepted]).coin.transit, y.st ≠ .entered) ∧
      s.start.rstHeld = false ∧ s.coin.transit = [accepted] ++ { entered with number := 1 } :: [] ∧
      (∀ y ∈ [accepted], y.st ≠ .entered) ∧ ({ entered with number := 1 } : Transit).st = .entered ∧
      (s.req.cfg.values.get 1 ≠ 0 ∧ s.coin.escrow.length + (s.coin.transit.filter fun y => y.st == .accepted).length < 10 ∧
        s.start.phase = .ready ∧ s.call.st.acceptsCoins = true ∧ s.call.reasons.closesGate = false ∧
        s.call.reasons.blocksRouting = false ∧ s.pfw = false) ∧
      s.req.cfg.values.get 0 = 0 ∧
      (withCoin ready { CoinPath.zero with acceptEnd := some 40 }).coin.acceptEnd = some 40 := by decide

theorem witness_PassagesAndStrings :
    let s := withTransit ready [entered, { accepted with number := 1 }]
    (s.start.rstHeld = false ∧ s.start.phase = .ready ∧ s.coin.passage = none) ∧
      (∀ y ∈ (withTransit ready [entered]).coin.transit, ¬ (y.st = .accepted ∧ y.atSensor = false)) ∧
      (s.coin.transit = [entered] ++ { accepted with number := 1 } :: [] ∧
        (∀ y ∈ [entered], ¬ (y.st = .accepted ∧ y.atSensor = false)) ∧ accepted.st = .accepted ∧ accepted.atSensor = false) ∧
      (let p : Passage := ⟨none, false, 250⟩
       (withCoin ready { CoinPath.zero with passage := some p }).coin.passage = some p ∧ p.strung = false ∧ p.bound = none) ∧
      (let p : Passage := ⟨some 0, false, 250⟩
       let x := { accepted with atSensor := true, deadline := none }
       let s := withCoin ready { CoinPath.zero with transit := [x], passage := some p }
       s.coin.passage = some p ∧ p.strung = false ∧ p.bound = some x.number ∧ s.coin.transit = [] ++ x :: [] ∧
         x.atSensor = true) := by decide

/-- Rails with 9 and with 10 entries. -/
theorem witness_EscinInactiveEndsPassage :
    let x := { accepted with atSensor := true, deadline := none }
    let at_ (n : Nat) (p : Passage) : State := withCoin ready
      { CoinPath.zero with transit := [x], passage := some p, escrow := List.replicate n heldOver }
    ready.start.rstHeld = false ∧
      (at_ 9 ⟨none, false, 250⟩).coin.passage = some ⟨none, false, 250⟩ ∧ (at_ 9 ⟨none, false, 250⟩).coin.escrow.length < 10 ∧
      (at_ 10 ⟨none, true, 250⟩).coin.passage = some ⟨none, true, 250⟩ ∧ 10 ≤ (at_ 10 ⟨none, true, 250⟩).coin.escrow.length ∧
      (at_ 9 ⟨some 0, false, 250⟩).coin.passage = some ⟨some x.number, false, 250⟩ ∧
      (at_ 9 ⟨some 0, false, 250⟩).coin.transit = [] ++ x :: [] ∧ x.atSensor = true ∧ x.cls = some 1 ∧
      (at_ 9 ⟨some 0, false, 250⟩).coin.escrow.length < 10 ∧ 10 ≤ (at_ 10 ⟨some 0, false, 250⟩).coin.escrow.length := by decide

theorem witness_StandingAndCommitment :
    (withCoin ready { CoinPath.zero with returnAll := some 0 }).coin.returnAll.isSome = true ∧
      (ready.coin.returnAll = none ∧ (inCall .collect .ready).call.st.acceptsCoins = true) ∧
      (let s := inCall .seizing .seizing
       ({ s with call := { s.call with followOn := true } } : State).call.st = .seizing ∧
         ({ s with call := { s.call with followOn := true } } : State).call.followOn = true) ∧
      ¬ (ready.call.st.acceptsCoins = true ∨ (ready.call.st = .seizing ∧ ready.call.followOn = true)) ∧
      (withReasons ready frozenBy).call.reasons.flapFault = true ∧
      (∀ y ∈ (withEscrow ready [heldOver]).coin.escrow, ¬ (y.st = .held ∧ y.standing = .credit)) ∧
      ((withEscrow ready [heldOver, coin20]).coin.escrow = [heldOver] ++ coin20 :: [] ∧ ready.call.reasons.chuteBlocked = false ∧
        ready.call.reasons.flapFault = false ∧ (∀ y ∈ [heldOver], ¬ (y.st = .held ∧ y.standing = .credit)) ∧
        coin20.st = .held ∧ coin20.standing = .credit) := by decide

/-- The last clause in the pulse that a confirmation has outrun: the driver is not IDLE and nothing is in flight. -/
theorem witness_FlapDriver :
    (ready.start.rstHeld = false ∧ (withEscrow ready [collecting]).coin.escrow = collecting :: [] ∧
      (withEscrow ready [collecting]).coin.inFlight = none ∧ ready.call.reasons.chuteBlocked = false ∧
      ready.call.reasons.flapFault = false ∧ ready.pfw = false ∧ ready.coin.deadEnd = none ∧ ready.coin.flap = .idle ∧
      ready.start.phase ≠ .purging) ∧
      collecting.st = .releasingCollect ∧ returning.st = .releasingReturn ∧ coin20.st = .held ∧
      ready.coin.escrow = [] ∧
      (let s := withCoin ready { CoinPath.zero with flap := .pulse, pulseEnd := some 80, escrow := [collecting] }
       s.coin.flap ≠ .idle ∧ s.coin.inFlight = none ∧ s.coin.pulseEnd = some 80) ∧
      (withCoin ready { CoinPath.zero with flap := .settle, deadEnd := some 110 }).coin.deadEnd = some 110 := by decide

/-- The last two parts in a return-all, with a CREDIT coin in flight and none. -/
theorem witness_FailedReleases :
    let s (r : Bool) : State := withCoin ready
      { CoinPath.zero with escrow := [collecting, returning], flap := .window, inFlight := some (flight .collect r) }
    let all (f : Option InFlight) : State := withCoin ready
      { CoinPath.zero with escrow := [returning, { returning with seq := 1 }], returnAll := some 0, inFlight := f }
    ready.start.rstHeld = false ∧ (s false).coin.inFlight = some (flight .collect false) ∧
      (flight .collect false).retry = false ∧ (s true).coin.inFlight = some (flight .collect true) ∧
      (flight .collect true).retry = true ∧ (s true).coin.escrow = collecting :: [returning] ∧
      (BlockReason.flapFault = .chuteBlocked ∨ BlockReason.flapFault = .flapFault) ∧
      frozen (withReasons ready frozenBy) = true ∧ frozen ready = false ∧
      ready.coin.inFlight = none ∧ frozen (s false) = false ∧ (s false).coin.returnAll = none ∧
      (s false).coin.inFlight.isSome = true ∧
      (frozen (all none) = false ∧ (all none).coin.inFlight = none ∧ (all none).coin.returnAll.isSome = true) ∧
      ((all (some (flight .return_ true))).coin.inFlight.isSome = true ∧
        (all (some (flight .return_ true))).coin.escrow = returning :: [{ returning with seq := 1 }] ∧
        returning.standing = .credit ∧ heldOver.standing ≠ .credit) ∧ ready.call.st ≠ .clearing := by decide

/-- A vault update already waits behind an item in progress, is held, and is itself in progress; the quota of 2. -/
theorem witness_VaultArrivals :
    let s := withCoin ready { CoinPath.zero with escrow := [collecting], flap := .window, inFlight := some (flight .collect true) }
    let q (k : Bool) (l : List Item) : State := { ready with writer := { RecordWriter.zero with queue := l, taken := k } }
    let rest (y : State) : List Item := if y.writer.taken = true then y.writer.queue.tail else y.writer.queue
    (State.reset.start.rstHeld = false ∧ State.reset.start.phase = .resetting) ∧
      (s.start.rstHeld = false ∧ s.start.phase ≠ .resetting ∧ s.start.phase ≠ .scanning ∧
        s.coin.inFlight = some (flight .collect true) ∧ (flight .collect true).coil = .collect ∧ s.coin.escrow = collecting :: []) ∧
      ready.coin.inFlight = none ∧ collecting.cls = some 1 ∧ ({ collecting with cls := none } : Escrow).cls = none ∧
      (withReasons ready { Reasons.empty with accountFault := true }).call.reasons.accountFault = true ∧
      ((∀ k : Fin 8, ready.vault.base.coins.get k ≤ ready.vault.life.coins.get k) ∧
        ready.vault.base.stray ≤ ready.vault.life.stray) ∧
      (.vaultUpdate ∈ rest (q false [.vaultUpdate]) ∧ .vaultUpdate ∈ rest (q true [.vaultUpdate, .vaultUpdate]) ∧
        .vaultUpdate ∉ rest (q true [.vaultUpdate]) ∧ .update ∉ (q true [.vaultUpdate]).vault.held ∧
        ((q true [.vaultUpdate]).writer.queue.filter fun i => i.producer == .vault).length < 2 ∧
        2 ≤ ((q true [.vaultUpdate, .collection [] []]).writer.queue.filter fun i => i.producer == .vault).length) := by decide

theorem witness_ReturnEventMatches :
    let d := { accepted with number := 1, st := .diverted }
    let s (x : Escrow) (rest : List Escrow) (r : Option Nat) : State := withCoin ready { CoinPath.zero with
      escrow := x :: rest, flap := .window, inFlight := some (flight .return_ false), returnAll := r }
    (State.reset.start.rstHeld = false ∧ State.reset.start.phase = .resetting) ∧
      (({ purging with coin := { CoinPath.zero with purgeStarted := true } } : State).start.phase = .purging ∧
      ({ purging with coin := { CoinPath.zero with purgeStarted := true } } : State).coin.purgeStarted = true ∧
      purging.start.rstHeld = false ∧ purging.coin.purgeStarted = false) ∧
      (ready.start.rstHeld = false ∧ ready.start.phase = .ready) ∧
      ((withTransit ready [entered, d]).coin.transit = [entered] ++ d :: [] ∧
        (∀ y ∈ [entered], y.st ≠ .rejected ∧ y.st ≠ .diverted) ∧ d.st = .diverted) ∧
      ((s heldOver [] none).coin.inFlight = some (flight .return_ false) ∧ (flight .return_ false).coil = .return_ ∧
        (s heldOver [] none).coin.escrow = heldOver :: [] ∧ heldOver.standing ≠ .credit ∧ (s heldOver [] none).coin.transit = []) ∧
      ((s returning [returning] (some 0)).coin.returnAll = some 0 ∧ returning.standing = .credit ∧
        (∃ y ∈ [returning], y.standing = .credit) ∧ ∀ y ∈ [heldOver], y.standing ≠ .credit) ∧
      ready.coin.inFlight = none := by decide

theorem witness_PurgePulses :
    (purging.start.rstHeld = false ∧ purging.start.phase = .purging ∧ purging.coin.purgeNext = some 0 ∧ purging.pfw = false) ∧
      ({ purging with pfw := true } : State).pfw = true ∧
      (withCoin purging { CoinPath.zero with purgePulseEnd := some 80, purgeDone := 9 }).coin.purgePulseEnd = some 80 ∧
      (withCoin purging { CoinPath.zero with purgeLast := some 880 }).coin.purgeLast = some 880 := by decide

/-- The worked figures of 02, section 2.4: R = 45, S = 20, K = 5; and a table whose first band is LOCAL. -/
theorem witness_UnitChargeAndShadow :
    0 < 5 ∧ 5 ∣ 15 ∧ 45 * 20 ≤ 60 * 15 ∧ byteAt (List.replicate 48 0#8) (32 + 16 * 0) / 16 = 0 ∧
      byteAt (List.replicate 48 16#8) (32 + 16 * 0) / 16 = 1 ∧ 0 < byteAt (List.replicate 48 16#8) 4 ∧
      0 < byteAt (List.replicate 48 16#8) 5 := by decide

theorem witness_PeakAndOffPeak :
    local45.mode = .localBand ∧
      (let x := { local45 with offStart := 1320, offEnd := 360 }
       x.mode = .localBand ∧ x.offEnd < x.offStart ∧ (⟨0, 86399, true, none⟩ : Clock).isSet = true ∧
         x.offStart ≤ (⟨0, 86399, true, none⟩ : Clock).sec / 60) := by decide

/-- B at u, B one short of u with a coin to collect, and with none. -/
theorem witness_DebitInConnectedAndGrace :
    let s (b : Nat) : State := { inCall .connected .answered with acct := { Account.zero with b := b, e := 20 } }
    (s 15).call.st = .connected ∧ 15 ≤ (s 15).acct.b ∧ (s 14).acct.b < 15 ∧
      (collectRequest (withEscrow (s 14) [coin20])).1 = some 20 ∧ (collectRequest (s 14)).1 = none ∧
      (inCall .grace .answered).call.st = .grace := by decide

theorem witness_DebitKeepsTheBalance :
    let s : State := withEscrow { inCall .connected .answered with acct := { Account.zero with b := 10, e := 20, c := 999984 } } [coin20]
    (s.call.st = .connected ∧ s.acct.o = 0) ∧ creditSum s.coin.escrow ≤ s.acct.e ∧ s.acct.c + 15 ≤ 999999 ∧
      s.acct.o + 15 ≤ 999999 ∧ (inCall .grace .answered).call.st = .grace := by decide

theorem witness_StepsAndPulsesAreCharged :
    (let s := { rated (inCall .connected .answered) local45 with rate := ⟨some local45, some 60000, none⟩ }
     s.start.rstHeld = false ∧ s.rate.ctx = some local45 ∧ s.rate.nextStep = some 60000 ∧ s.call.st = .connected ∧
       local45.mode = .localBand) ∧
      (let s := rated (inCall .grace .answered) meter10
       s.start.rstHeld = false ∧ s.rate.ctx = some meter10 ∧ s.line.owner = .call ∧ s.line.st = .answered ∧
         meter10.mode = .meter ∧ meter10.uncharged = false ∧ s.call.st = .grace) := by decide

/-- O at the coin's value, and one more. -/
theorem witness_CreditCoinByCallState :
    let s (o : Nat) : State := withEscrow { rated (inCall .grace .answered) local45 with acct := { Account.zero with e := 20, o := o } }
      [coin20]
    (s 20).call.st = .grace ∧ (collectRequest (withEscrow (s 20) [])).1 = none ∧ (collectRequest (s 20)).1 = some 20 ∧
      20 < (s 21).acct.o ∧ (s 20).acct.o ≤ 20 ∧ (s 20).rate.ctx = some local45 ∧ local45.uncharged = false := by decide

/-- COLLECT with the buffer empty, filled, and the hold flag set; AWAIT_DEPOSIT at the deposit and 1 below; CONNECTED with 20
available at and below the threshold of `local45`'s context, and uncharged; and a state in which nothing follows. -/
theorem witness_CreditCoinByCallState_states :
    let owed (a : Nat) (s : State) : State := { s with acct := { Account.zero with e := a } }
    let waits (a : Nat) : State :=
      let s := owed a (inCall .awaitDeposit .ready)
      { s with call := { s.call with deposit := 20 } }
    let charged (a : Nat) (x : RatingContext) : State := owed a (rated (inCall .connected .answered) x)
    let t := threshold local45 ready.clock
    ((dialling []).call.st = .collect ∧ (dialling []).num.buffer = [] ∧ (dialling []).call.holdFlag = false ∧
        (dialling [1]).num.buffer ≠ []) ∧
      ((waits 20).call.st = .awaitDeposit ∧ (waits 20).call.deposit ≤ (waits 20).acct.available ∧
        (waits 19).acct.available < (waits 19).call.deposit) ∧
      ((charged t local45).call.st = .connected ∧ (charged t local45).rate.ctx = some local45 ∧ local45.uncharged = false ∧
        t ≤ (charged t local45).acct.available ∧ 0 < t ∧ (charged (t - 1) local45).acct.available < t ∧
        { local45 with uncharged := true }.uncharged = true) ∧
      ((inCall .clearing .released).call.st = .clearing ∧ ready.call.st = .idle) ∧
      ({ local45 with mode := .meter } : RatingContext).mode = .meter := by decide

/-- With a record and without, with PFW asserted and clear, and with an initial charge of 0. -/
theorem witness_AnswerStartsCharging :
    let s (x : RatingContext) : State :=
      let y := rated (inCall .ringing .awaitAnswer) x
      { y with call := { y.call with seq := some 10 } }
    (inCall .ringing .awaitAnswer).rate.ctx = none ∧ (inCall .ringing .awaitAnswer).call.seq = none ∧
      (s local45).rate.ctx = some local45 ∧ (s local45).call.seq = some 10 ∧ (s local45).pfw = false ∧
      ({ s local45 with pfw := true } : State).pfw = true ∧
      ({ local45 with uncharged := true } : RatingContext).uncharged = true ∧
      (meter10.uncharged = false ∧ meter10.mode = .meter ∧ meter10.initial = 0 ∧ AnswerKind.pulse = .pulse ∧
        AnswerKind.reversal ≠ .pulse) ∧
      (local45.uncharged = false ∧ local45.mode = .localBand ∧ 0 < local45.delay) ∧
      (local45.initial ≠ 0 ∧ ({ local45 with initial := 0 } : RatingContext).initial = 0) ∧
      ({ local45 with delay := 0 } : RatingContext).delay = 0 := by decide

/-- A buffer with room for one digit more and a full one, and each key where it acts. -/
theorem witness_KeysByCallState :
    let keyed (s : State) (k : Key) : State := { s with num := { s.num with keys := [k] } }
    let nine := dialling (List.replicate 19 1)
    ready.start.rstHeld = false ∧ ready.num.keys = [] ∧ (inCall .seizing .seizing).call.st = .seizing ∧
      (keyed ready .star).num.keys = .star :: [] ∧ ready.call.st = .idle ∧
      ((keyed nine (.digit 2)).num.keys = .digit 2 :: [] ∧ nine.call.st = .collect ∧ nine.num.buffer.length < 20 ∧
        20 ≤ (dialling (List.replicate 20 1)).num.buffer.length) ∧
      ((keyed (dialling [1]) .hash).num.keys = .hash :: [] ∧ completesOn (dialling [1]).tariff.shadow.routes [1] = none ∧
        completesOn (dialling [1, 1, 8, 4, 4]).tariff.shadow.routes [1, 1, 8, 4, 4] = some ⟨[1, 1, 8], 4, 5, 6⟩) ∧
      (keyed (dialling [1]) .clear).num.keys = .clear :: [] ∧ (dialling [1]).call.st = .collect ∧
      ((keyed (inCall .connected .answered) (.digit 0)).num.keys = .digit 0 :: [] ∧
        (inCall .connected .answered).call.st = .connected ∧ (inCall .connected .answered).req.cfg.dialMethod = .tone ∧
        (inCall .connected .answered).line.owner = .call ∧ (inCall .connected .answered).line.st = .answered ∧
        (inCall .connected .answered).line.queue.length < 80 ∧ (inCall .connected .answered).line.phase = .idle ∧
        (lined (fun l => { l with phase := .toneOn }) (inCall .connected .answered)).line.phase ≠ .idle ∧
        ready.line.owner ≠ .call) ∧
      (keyed (inCall .afterCall .answered) .followOn).num.keys = .followOn :: [] ∧
      (inCall .afterCall .answered).call.st = .afterCall := by decide

theorem witness_KeysByCallState_tone :
    let s := inCall .connected .answered
    s.call.st = .connected ∧ s.req.cfg.dialMethod = .tone ∧ s.line.owner = .call ∧ s.line.st = .answered ∧
      s.line.queue.length < 80 ∧ s.line.phase = .idle ∧ s.line.queue = [] := by decide

/-- 112; 998, which no entry begins; 11, the beginning of 112; and 118 with 6 digits, the maximum of its entry, whose band is
stored. -/
theorem witness_NumberAnalysis :
    (dialling [1, 1, 2]).num.buffer ∈ (dialling [1, 1, 2]).req.cfg.emergency ∧
      (let s := dialling [9, 9, 8]
       s.num.buffer ∉ s.req.cfg.emergency ∧
         (∀ r ∈ s.tariff.shadow.routes, ¬ r.digits <+: s.num.buffer ∧
           ¬ (s.num.buffer <+: r.digits ∧ s.num.buffer.length < r.digits.length)) ∧
         (∀ e ∈ s.req.cfg.emergency, ¬ (s.num.buffer <+: e ∧ s.num.buffer.length < e.length))) ∧
      (let s := dialling [9]
       s.num.buffer ∉ s.req.cfg.emergency ∧ (∀ r ∈ s.tariff.shadow.routes, ¬ r.digits <+: s.num.buffer) ∧
         ∃ e ∈ s.req.cfg.emergency, s.num.buffer <+: e ∧ s.num.buffer.length < e.length) ∧
      (let s := dialling [1, 1, 8, 4, 4, 7]
       let r : Route := ⟨[1, 1, 8], 4, 5, 6⟩
       s.num.buffer ∉ s.req.cfg.emergency ∧ r ∈ s.tariff.shadow.routes ∧ r.digits <+: s.num.buffer ∧
         (∀ x ∈ s.tariff.shadow.routes, x ≠ r → x.digits <+: s.num.buffer → x.digits.length < r.digits.length) ∧
         s.num.buffer.length = r.maxLen) ∧
      (let s := dialling [1, 1, 8]
       let x : Band := ⟨.localBand, false, false, 30, 60, 15, 10, 0, 20, 60, false⟩
       ({ s with tariff := { s.tariff with shadow := { s.tariff.shadow with bands := List.replicate 5 x } } } : State).tariff.shadow.bands[4]?
         = some x) := by decide

/-- The deposit at the available credit and one more; the ring at 127 and at 128 records. -/
theorem witness_RoutingOrder :
    let paid60 : Band := ⟨.localBand, false, false, 30, 60, 15, 10, 0, 20, 60, false⟩
    let s (e : Nat) : State := { dialling [5] with acct := { Account.zero with e := e } }
    let tens : State :=
      let y := dialling [10]
      { y with req := { y.req with cfg := { y.req.cfg with dialMethod := .decadic } } }
    let ring (n : Nat) : State :=
      let y := dialling [5]
      { y with call := { y.call with nextSeq := n } }
    ({ paid60 with barred := true } : Band).barred = true ∧ paid60.barred = false ∧ paid60.free = false ∧
      (withReasons (s 60) jammed).call.reasons ≠ Reasons.empty ∧ (s 60).call.reasons = Reasons.empty ∧
      (∃ d ∈ tens.num.buffer, 10 ≤ d) ∧ tens.req.cfg.dialMethod = .decadic ∧
      ¬ (∃ d ∈ (s 60).num.buffer, 10 ≤ d) ∧
      ({ paid60 with free := true } : Band).free = true ∧ (ring 127).call.unacked < 128 ∧ 128 ≤ (ring 128).call.unacked ∧
      paid60.deposit ≤ (s 60).acct.available ∧ (s 59).acct.available < paid60.deposit ∧
      (s 60).call.st ≠ .connected ∧ (s 60).call.st ≠ .grace := by decide

theorem witness_HookAndHandset :
    let off (s : State) : State := { s with call := { s.call with hook := .off } }
    let waits (s : State) : State := { s with call := { s.call with waiting := true } }
    ready.start.rstHeld = false ∧ (off ready).call.hook = .off ∧ ready.call.hook = .on ∧
      State.reset.start.phase ≠ .ready ∧ State.reset.call.hook = .on ∧
      (ready.start.phase = .ready ∧ ready.call.st = .idle ∧ (reporting .awaitReady .awaitAnswer).line.owner = .report ∧
        (reporting .awaitReady .awaitAnswer).call.st = .idle ∧ ready.line.owner ≠ .report) ∧
      ((off State.reset).call.hook = .off ∧ (inCall .clearing .ready).call.st = .clearing ∧
        (inCall .clearing .ready).call.hook = .off) ∧
      ((inCall .parked .ready).call.st = .parked ∧ (inCall .collect .ready).call.st ≠ .idle ∧
        (inCall .collect .ready).call.st ≠ .parked ∧ (inCall .collect .ready).call.st ≠ .clearing ∧
        (inCall .collect .ready).start.phase = .ready ∧ (inCall .collect .ready).call.hook = .off) ∧
      ((off ready).call.st = .idle ∧ (off ready).call.waiting = false ∧ (waits (off ready)).call.waiting = true ∧
        (waits (off ready)).call.hook = .off) := by decide

theorem witness_CallTimersRunOut :
    let timed (c : CallState) (f : CallControl → CallControl) : State :=
      let s := inCall c .ready
      { s with call := f s.call }
    (timed .seizing fun c => { c with grantEnd := some 10000 }).call.grantEnd = some 10000 ∧
      (timed .seizing id).call.st = .seizing ∧ (timed .seizing id).start.rstHeld = false ∧
      (timed .ringing fun c => { c with answerEnd := some 180000 }).call.answerEnd = some 180000 ∧
      (timed .ringing id).call.st = .ringing ∧
      ({ timed .grace id with rate := ⟨none, none, some 16000⟩ } : State).rate.graceEnd = some 16000 ∧
      (timed .grace id).call.st = .grace ∧
      (timed .afterCall fun c => { c with followEnd := some 10000 }).call.followEnd = some 10000 ∧
      (timed .afterCall id).call.st = .afterCall ∧
      (timed .awaitDeposit fun c => { c with depositEnd := some 30000 }).call.depositEnd = some 30000 ∧
      (timed .awaitDeposit id).call.st = .awaitDeposit ∧
      (timed .collect fun c => { c with holdEnd := some 90000 }).call.holdEnd = some 90000 ∧
      (timed .collect id).call.st = .collect ∧
      (let s (b : List Nat) : State := { dialling b with num := { (dialling b).num with silenceEnd := some 4000 } }
       (s [1, 1, 8, 4, 4]).num.silenceEnd = some 4000 ∧ (s [1, 1, 8, 4, 4]).call.st = .collect ∧
         completesOn (s [1, 1, 8, 4, 4]).tariff.shadow.routes (s [1, 1, 8, 4, 4]).num.buffer = some ⟨[1, 1, 8], 4, 5, 6⟩ ∧
         completesOn (s [1, 1, 8, 4]).tariff.shadow.routes (s [1, 1, 8, 4]).num.buffer = none) := by decide

/-- A held call with REPORT waiting, and one without the request. -/
theorem witness_CallTimersRunOut_preempted :
    let held (r : Bool) : State :=
      let s := lined (fun l => { l with reportReq := r }) (inCall .collect .ready)
      { s with call := { s.call with holdFlag := true } }
    ((held true).line.owner = .call ∧ (held true).line.reportReq = true ∧ (held true).call.st = .collect ∧
      (held true).call.holdFlag = true) ∧ (held false).line.reportReq ≠ true := by decide

/-- A CREDIT coin beside another, another alone, an empty escrow, and a frozen one. -/
theorem witness_ClearingClosesTheMoney :
    let s := withEscrow (inCall .connected .answered) [collecting, coin20]
    let none_ := withEscrow (inCall .grace .answered) [collecting]
    (frozen s = false ∧ ∃ x ∈ s.coin.escrow, x.standing = .credit) ∧
      (frozen none_ = false ∧ ∀ x ∈ none_.coin.escrow, x.standing ≠ .credit) ∧
      (frozen ready = false ∧ ∀ x ∈ ready.coin.escrow, x.standing ≠ .credit) ∧ frozen (withReasons s frozenBy) = true := by
  decide

theorem witness_ReturnAllCompletesClearing :
    let on (s : State) : State := { s with call := { s.call with hook := .on } }
    let due : State := { ready with
      tariff := { Tariff.zero with activation := .pending, pendShadow := some Shadow.empty }
      req := { ready.req with reload := .pending, pendCfg := some Settings.default } }
    (due.tariff.activation = .pending ∧ due.tariff.pendShadow = some Shadow.empty ∧ due.req.reload = .pending ∧
      due.req.pendCfg = some Settings.default) ∧ ready.tariff.activation ≠ .pending ∧ ready.req.reload ≠ .pending ∧
    (inCall .clearing .released).call.st = .clearing ∧ (inCall .clearing .released).call.hook = .off ∧
      (on (inCall .clearing .released)).call.hook = .on := by decide

/-- A call with a record and one without. -/
theorem witness_FollowOnCarriesTheCredit :
    let s := inCall .connected .answered
    s.line.owner = .call ∧ s.call.seq = none ∧
      ({ s with call := { s.call with seq := some 10 } } : State).call.seq = some 10 ∧
      ready.rate.ctx = none ∧ (rated s local45).rate.ctx = some local45 := by decide

theorem witness_AnswerAndClearBack :
    let ringing := rated (inCall .ringing .awaitAnswer) meter10
    let back (s : State) : State := lined (fun l => { l with reversal := true }) s
    ringing.start.rstHeld = false ∧
      ({ ringing with call := { ringing.call with assumedEnd := some 20000 } } : State).call.assumedEnd = some 20000 ∧
      ringing.call.st = .ringing ∧ ringing.line.owner = .call ∧ ringing.line.st = .awaitAnswer ∧
      ringing.rate.ctx = some meter10 ∧ meter10.mode = .meter ∧ ringing.line.reversal = false ∧
      (back ringing).line.reversal = true ∧ (back ringing).call.st ≠ .connected ∧ (back ringing).call.st ≠ .grace ∧
      (back (inCall .connected .answered)).call.st = .connected ∧ (back (inCall .connected .answered)).line.owner = .call ∧
      (back (inCall .connected .answered)).line.st = .answered ∧ (back (inCall .connected .answered)).line.reversal = true := by
  decide

theorem witness_AnswerAndClearBack_supervision :
    let bare : State := { ready with req := { ready.req with cfg := { Settings.default with supervision := .unsupervised } } }
    ready.req.cfg.supervision = .supervised ∧ bare.req.cfg.supervision = .unsupervised := by decide

theorem witness_LineEvents :
    let guard := lined (fun l => { l with guardEnd := some 1000 }) ready
    let seizing := lined (fun l => { l with dialToneEnd := some 5000 }) (inCall .seizing .seizing)
    let report := lined (fun l => { l with dialToneEnd := some 5000 }) (reporting .seizing .seizing)
    guard.start.rstHeld = false ∧ guard.line.st = .guarding ∧ guard.line.guardEnd = some 1000 ∧
      (seizing.line.st = .seizing ∧ seizing.line.owner = .call ∧ seizing.call.st = .seizing ∧
        seizing.line.dialToneEnd = some 5000 ∧ seizing.line.loopSuspended = false) ∧
      (report.line.st = .seizing ∧ report.line.owner = .report ∧ report.line.dialToneEnd = some 5000 ∧
        report.line.loopSuspended = false) ∧
      ready.line.owner = .none ∧
      (lined (fun l => { l with loopSuspended := true }) (inCall .dialling .sending)).line.loopSuspended = true ∧
      ((inCall .connected .answered).line.loopSuspended = false ∧ (inCall .connected .answered).line.st ≠ .seizing ∧
        (inCall .connected .answered).line.owner = .call) ∧
      ((reporting .awaitReady .awaitAnswer).line.st ≠ .seizing ∧ (reporting .awaitReady .awaitAnswer).line.owner = .report) := by
  decide

theorem witness_LineEvents_clearing :
    ready.call.st = .idle ∧ (inCall .parked .released).call.st = .parked ∧ (inCall .clearing .released).call.st = .clearing ∧
      ((inCall .connected .answered).call.st ≠ .idle ∧ (inCall .connected .answered).call.st ≠ .parked ∧
        (inCall .connected .answered).call.st ≠ .clearing) := by decide

theorem witness_ReleaseAndGrant :
    let asks (c r v : Bool) : State :=
      lined (fun l => { l with st := .released, callReq := c, reportReq := r, reservation := v }) ready
    ready.line.owner = .none ∧ (inCall .connected .answered).line.owner ≠ .report ∧
      (LineOwner.call ≠ .none ∧ (inCall .connected .answered).line.owner = .call ∧ LineOwner.call ≠ .report) ∧
      (LineOwner.report ≠ .none ∧ (reporting .awaitReady .answered).line.owner = .report ∧
        (reporting .awaitReady .answered).call.waiting = false) ∧
      (let s : State := { reporting .awaitReady .answered with call := { ready.call with hook := .off, waiting := true } }
       s.line.owner = .report ∧ s.call.waiting = true) ∧
      ready.line.st ≠ .released ∧ (asks false false false).line.callReq = false ∧ (asks false false false).line.reportReq = false ∧
      ((asks true false false).line.st = .released ∧ (asks true false false).start.phase = .ready ∧
        (asks true false false).line.callReq = true ∧ (asks true false false).line.reportReq = false) ∧
      ((asks true true false).line.callReq = true ∧ (asks true true false).line.reservation = false ∧
        urgentMark (asks true true false) = false) ∧
      ((asks true true true).line.reportReq = true ∧ (asks true true true).line.reservation = true) ∧
      ((withSlot (asks true true false) .vaultPry slot).line.reportReq = true ∧
        emergencyMark (withSlot (asks true true false) .vaultPry slot) = false ∧
        urgentMark (withSlot (asks true true false) .vaultPry slot) = true) := by decide

/-- The timers, with the last digit, one before dropped codes and one before a digit behind them. -/
theorem witness_SenderTimers :
    let tone (q : List Nat) (p : SendPhase) : State :=
      lined (fun x => { x with queue := q, phase := p, phaseEnd := some 70 }) (inCall .dialling .sending)
    (tone [5] .toneOn).start.rstHeld = false ∧ (tone [5] .toneOn).line.phaseEnd = some 70 ∧ (tone [5] .toneOn).line.phase = .toneOn ∧
      ((tone [5, 6] .toneOff).line.phase = .toneOff ∧ (tone [5, 6] .toneOff).line.mode = .tone ∧
        (tone [5, 6] .toneOff).line.queue = 5 :: 6 :: []) ∧
      ((tone [5] .toneOff).line.phase = .toneOff ∧ (tone [5] .toneOff).line.mode = .tone ∧ (tone [5] .toneOff).line.queue = [5]) ∧
      ((decadic [2, 0, 3] .breaking 2 60).line.phase = .breaking ∧ (decadic [2, 0, 3] .breaking 2 60).line.phaseEnd = some 60) ∧
      ((decadic [2, 0, 3] .making 2 100).line.phase = .making ∧ 1 < (decadic [2, 0, 3] .making 2 100).line.breaks) ∧
      ((decadic [2] .making 1 200).line.phase = .making ∧ (decadic [2] .making 1 200).line.breaks ≤ 1 ∧
        (decadic [2] .making 1 200).line.mode = .decadic ∧ (decadic [2] .making 1 200).line.queue = 2 :: [] ∧
        (decadic [2, 10, 11] .making 1 200).line.queue = 2 :: [10, 11] ∧ ∀ c ∈ [10, 11], 10 ≤ c) ∧
      ((decadic [2, 9] .making 1 200).line.breaks ≤ 1 ∧ (decadic [2, 9] .making 1 200).line.mode = .decadic ∧
        (decadic [2, 9] .making 1 200).line.queue = 2 :: [] ++ 9 :: [] ∧ 9 < 10 ∧
        (decadic [2, 11, 9, 10] .making 1 200).line.queue = 2 :: [11] ++ 9 :: [10] ∧ ∀ c ∈ [11], 10 ≤ c) ∧
      ((decadic [0, 3] .pause 0 900).line.phase = .pause ∧ (decadic [0, 3] .pause 0 900).line.mode = .decadic ∧
        (decadic [0, 3] .pause 0 900).line.queue = 0 :: [3]) := by decide

/-- The ends of sequences; loads by the owner and by another party, of 80 codes and more, with dropped codes, of none and of
codes all dropped; RINGING supervised, unsupervised, with delay 0 and with a reversal. -/
theorem witness_SenderTimers_sequences :
    let sent (s : State) (o : SendOrigin) : State := lined (fun x => { x with origin := o }) s
    let unsup (n : Nat) : State := { ready with
      req := { ready.req with cfg := { Settings.default with supervision := .unsupervised, assumedDelay := n } } }
    let idle (s : State) : Prop := s.line.st = .sending ∧ s.line.queue = [] ∧ s.line.phase = .idle
    (ready.line.st ≠ .sending ∧ (decadic [5] .making 1 70).line.queue ≠ [] ∧ (decadic [] .making 1 70).line.phase ≠ .idle) ∧
      (idle (sent (inCall .dialling .sending) .number) ∧ (inCall .dialling .sending).line.owner = .call ∧
        (sent (inCall .dialling .sending) .number).line.origin = .number ∧ (inCall .dialling .sending).call.st = .dialling) ∧
      (idle (sent (reporting .dialling .sending) .number) ∧ (reporting .dialling .sending).line.owner = .report ∧
        (sent (reporting .dialling .sending) .number).line.origin = .number ∧ (reporting .dialling .sending).dial.st = .dialling) ∧
      (idle (sent (reporting .message .sending) .message) ∧ (sent (reporting .message .sending) .message).line.origin = .message ∧
        (reporting .message .sending).dial.st = .message) ∧
      (ready.line.owner ≠ .call ∧ (inCall .collect .ready).line.owner = .call ∧ (inCall .collect .ready).line.st = .ready ∧
        (inCall .connected .answered).line.st ≠ .ready ∧ (reporting .awaitReady .answered).line.st = .answered ∧
        (List.replicate 81 1).take 80 = 1 :: List.replicate 79 1 ∧ [11, 9, 10].take 80 = [11] ++ 9 :: [10] ∧
        (∀ c ∈ [11], 10 ≤ c) ∧ 9 < 10 ∧ ∀ c ∈ [10, 11].take 80, 10 ≤ c) ∧
      (ready.line.reversal = false ∧ (lined (fun l => { l with reversal := true }) ready).line.reversal = true ∧
        ready.req.cfg.supervision = .supervised ∧ (unsup 20).req.cfg.supervision = .unsupervised ∧ (unsup 20).rate.ctx = none ∧
        0 < (unsup 1).req.cfg.assumedDelay ∧ (unsup 0).req.cfg.assumedDelay = 0) := by decide

theorem witness_DoorSessions :
    let shut (s : State) : State := vaulted (fun v => { v with doorOpen := false, session := .closed }) s
    (visit .authorised .inPlace).start.rstHeld = false ∧ (visit .authorised .inPlace).vault.doorOpen = true ∧
      State.reset.vault.doorOpen = false ∧ State.reset.start.phase ≠ .ready ∧
      ((shut (visit .closed .inPlace)).vault.doorOpen = false ∧ (shut (visit .closed .inPlace)).start.phase = .ready ∧
        (shut (visit .closed .inPlace)).vault.windowEnd.isSome = true) ∧
      (ready.vault.doorOpen = false ∧ ready.vault.windowEnd = none) ∧
      (ready.vault.boxPresent = true ∧ ready.vault.boxPresent ≠ false ∧ ready.vault.session = .closed) ∧
      (visit .authorised .out).vault.session = .authorised ∧ (visit .unauthorised .inPlace).vault.session = .unauthorised ∧
      ((visit .unauthorised .inPlace).vault.windowEnd = some 600000 ∧ (visit .unauthorised .inPlace).vault.session ≠ .authorised) ∧
      (visit .authorised .exchanged).vault.windowEnd = some 600000 ∧
      ((vaulted (fun v => { v with doorOpen := true }) State.reset).vault.doorOpen = true) ∧
      ((visit .authorised .inPlace).vault.boxPhase ≠ .exchanged ∧ (visit .authorised .inPlace).start.phase = .ready) ∧
      ((visit .authorised .exchanged).vault.session = .authorised ∧ (visit .authorised .exchanged).vault.boxPhase = .exchanged) := by
  decide

/-- The default thresholds 120, 300 and 900: the deltas at each entry, at each release (105, 263, 788) and one below. -/
theorem witness_ScanArithmetic :
    let t : Thresholds := ⟨120, 300, 900⟩
    let c (l : Level) (r f : Nat) : Channel := { Channel.zero with level := l, rising := r, falling := f }
    1 ≤ 2 ∧ t.near < t.contact ∧ t.contact < t.forced ∧
      ((c .quiet 1 0).level = .quiet ∧ (t.near : Int) ≤ 120 ∧ 2 ≤ (c .quiet 1 0).rising + 1 ∧ (c .quiet 0 0).rising + 1 < 2 ∧
        (119 : Int) < t.near) ∧
      ((c .near 1 1).level = .near ∧ (t.contact : Int) ≤ 300 ∧ (104 : Int) < ((t.near - t.near / 8 : Nat) : Int) ∧
        2 ≤ (c .near 0 1).falling + 1 ∧ (c .near 0 0).falling + 1 < 2 ∧ ((t.near - t.near / 8 : Nat) : Int) ≤ 105) ∧
      ((c .contact 0 0).level = .contact ∧ (t.forced : Int) ≤ 900 ∧ (262 : Int) < ((t.contact - t.contact / 8 : Nat) : Int) ∧
        ((t.contact - t.contact / 8 : Nat) : Int) ≤ 263 ∧ (263 : Int) < t.forced) ∧
      ((c .forced 0 0).level = .forced ∧ (787 : Int) < ((t.forced - t.forced / 8 : Nat) : Int) ∧
        ((t.forced - t.forced / 8 : Nat) : Int) ≤ 788) := by decide

/-- Scans 7 and 8 of settling; the arm check at its level, below it, and with an incident raised; and each change of context. -/
theorem witness_TamperTimers :
    let settling (n : Nat) : State := { ready with
      start := { ready.start with phase := .settling }
      tamper := { Tamper.zero with settling := .settling, settleCount := n, lastScan := some 0 } }
    let at_ (l : Level) (r : Bool) : State :=
      { running with tamper := { running.tamper with ch := Six.all { resting with level := l, raised := r } } }
    ready.start.rstHeld = false ∧ (settling 6).tamper.lastScan = some 0 ∧ (settling 6).tamper.settling = .settling ∧
      (settling 6).tamper.settleCount < 7 ∧ (settling 7).tamper.settleCount = 7 ∧
      (running.tamper.settling = .running ∧ running.tamper.lastScan = some 0) ∧
      (({ Tamper.zero with ch := Six.all { resting with haltStart := some 0 } } : Tamper).ch.get 5).haltStart = some 0 ∧
      ({ running.tamper with settleEnd := some 5000 } : Tamper).settleEnd = some 5000 ∧
      ({ running.tamper with loiter := .running 0 } : Tamper).loiter = .running 0 ∧
      ((at_ .forced false).tamper.inForce = .idle ∧ ((at_ .forced false).req.cfg.arms.get 0).idle ≠ .none ∧
        ((at_ .forced false).tamper.ch.get 0).level = .forced ∧ ((at_ .quiet true).tamper.ch.get 0).level = .quiet ∧
        ((at_ .quiet true).tamper.ch.get 0).raised = true ∧ ((at_ .quiet false).tamper.ch.get 0).raised = false) ∧
      ((at_ .contact false).tamper.settling = .running ∧ (at_ .contact false).tamper.loiter = .stopped ∧
        (at_ .quiet false).tamper.probe = false ∧ ({ running.tamper with probe := true } : Tamper).probe = true) ∧
      (running.tamper.context = .idle ∧ running.call.hook = .on ∧ running.line.owner = .none ∧ running.vault.windowEnd = none ∧
        ({ running.tamper with context := .inUse } : Tamper).context ≠ .idle ∧ ready.tamper.settling ≠ .running) ∧
      ((127).testBit 6 = true ∧ (64).testBit 0 = false) := by decide

/-- An event with the dialler in IDLE and in REQUESTING. -/
theorem witness_OpenEventsFillAndMerge :
    let mute : State := { ready with req := { ready.req with cfg := { Settings.default with severity := PerKind.all 0 } } }
    mute.req.cfg.severity.get .slotJam = 0 ∧
      (ready.req.cfg.severity.get .vaultPry ≠ 0 ∧ ready.inc.slots.get .vaultPry = none ∧
        2 ≤ ready.req.cfg.severity.get .vaultPry) ∧
      (ready.dial.st = .idle ∧ (reporting .requesting .released).dial.st ≠ .idle ∧
        (reporting .requesting .released).dial.st ≠ .retryWait) ∧
      (let x := { slot with severity := 2, report := .reported }
       (withSlot ready .vaultPry x).inc.slots.get .vaultPry = some x ∧ 2 ≤ x.severity ∧ x.report = .reported ∧ x.active = true) ∧
      ((withSlot ready .slotJam { slot with active := false }).inc.slots.get .slotJam = some { slot with active := false } ∧
        ({ slot with active := false } : Slot).active = false) := by decide

/-- A detail with and without a slot; and a slot at both upper bounds. -/
theorem witness_OpenEventsFillAndMerge_details :
    let full := { slot with detailCount := 255, detailMoney := 999999 }
    (ready.inc.slots.get .chuteBlocked = none ∧ (withSlot ready .chuteBlocked full).inc.slots.get .chuteBlocked = some full) ∧
      (ready.inc.slots.get .stringing = none ∧ (withSlot ready .stringing slot).inc.slots.get .stringing ≠ none) := by decide

/-- Each timer and tone, a slot due and none, the mark of a fresh series, and the third and the fourth failure. -/
theorem witness_ReportAttempts :
    let x := { slot with active := false, quietEnd := some 30000 }
    let dials (d : DialState) (n : Nat) (num : List Nat) : State := { ready with
      dial := { Dialler.zero with st := d, attempts := n, retryEnd := some 30000, handEnd := some 20000 }
      req := { ready.req with cfg := { Settings.default with reportNumber := num } } }
    let reacting (d : DialState) : State := { ready with dial := { Dialler.zero with st := d, react := true } }
    (ready.start.rstHeld = false ∧ (withSlot ready .vaultPry x).inc.slots.get .vaultPry = some x ∧ x.active = false ∧
      x.quietEnd = some 30000) ∧
      ((dials .retryWait 1 []).dial.st = .retryWait ∧ (dials .retryWait 1 []).dial.retryEnd = some 30000 ∧
        (dials .retryWait 1 []).req.cfg.reportNumber = [] ∧ (dials .retryWait 1 [5]).req.cfg.reportNumber ≠ []) ∧
      ((dials .awaitReady 0 []).dial.st = .awaitReady ∧ (dials .awaitReady 0 []).dial.handEnd = some 20000 ∧
        (dials .awaitKissoff 0 []).dial.st = .awaitKissoff) ∧
      ((reporting .awaitReady .awaitAnswer).line.owner = .report ∧ (reporting .awaitReady .awaitAnswer).line.st = .awaitAnswer ∧
        (reporting .awaitReady .awaitAnswer).dial.st = .awaitReady) ∧
      ((reporting .awaitKissoff .answered).line.st = .answered ∧ (reporting .awaitKissoff .answered).dial.st = .awaitKissoff ∧
        (reporting .message .answered).dial.st ≠ .awaitKissoff ∧ (reporting .message .awaitAnswer).dial.st ≠ .awaitReady) ∧
      ready.line.owner ≠ .report ∧ (reporting .message .sending).line.st ≠ .awaitAnswer ∧
      ((withSlot ready .vaultPry slot).inc.slots.get .vaultPry = some slot ∧ slot.report = .unreported ∧ 2 ≤ slot.severity ∧
        ∀ k, ready.inc.slots.get k = none) ∧
      (ready.dial.react = false ∧ (reacting .idle).dial.react = true ∧ (reacting .idle).dial.st = .idle ∧
        (reacting .retryWait).dial.st = .retryWait) ∧
      ready.call.waiting = false ∧ (dials .awaitReady 2 []).dial.attempts < 3 ∧ 3 ≤ (dials .awaitReady 3 []).dial.attempts ∧
      (dials .awaitReady 3 []).line.owner ≠ .report :=
  ⟨by decide, by decide, by decide, by decide, by decide, by decide, by decide,
    ⟨by decide, by decide, by decide, fun k => by cases k <;> rfl⟩, by decide, by decide⟩

/-- A failed attempt of the report that has the line while the caller waits. -/
theorem witness_ReportAttempts_waiting :
    let r := reporting .awaitReady .awaitAnswer
    let s : State := { r with call := { CallControl.zero with waiting := true } }
    s.call.waiting = true ∧ s.line.owner = .report ∧ s.dial.attempts < 3 := by decide

/-- A reset with and without an own write under way; vault pages blank (so valid, their sums being 0) and missing; a ring and a
log that are empty and that hold one record; and the first and the last page of each read. -/
theorem witness_ResetsAndStartUp :
    let zero : List Byte := List.replicate 64 0
    let at_ (f : Startup → Startup) : State := { State.reset with start := f { Startup.zero with phase := .scanning } }
    (∀ a d, ready.writer.phase ≠ .writing a d) ∧ ready.start.rstHeld = false ∧
      (writing (.writing 0x180 [1, 2])).writer.phase = .writing 0x180 [1, 2] ∧
      (after .rstReset ready).start.rstHeld = true ∧
      (State.reset.start.rstHeld = false ∧ State.reset.start.phase = .resetting ∧ State.reset.start.resettingEnd = some 16) ∧
      ((zero.take 62 |>.map (·.toNat)).sum % 65536 = be2 zero 62 ∧ (∀ i < 8, codeAt zero 0x28 i ≤ 9) ∧
        (at_ fun x => { x with vaultPages := [some zero, some zero, some zero, none] }).start.vaultPages
          = [some zero, some zero, some zero, none] ∧ byteAt zero 2 ≠ 1) ∧
      ((at_ id).start.ring = [] ∧ (at_ fun x => { x with ring := [(5, zero)] }).start.ring ≠ [] ∧
        (∀ x ∈ (at_ fun x => { x with ring := [(5, zero)] }).start.ring, x.2.length = 64)) ∧
      ((at_ fun x => { x with rewrites := 1 }).start.rewrites = 1 ∧ (at_ id).start.phase = .scanning) ∧
      (highest [4, 5, 5] = 5 ∧ (∀ a ∈ [4, 5, 5], newer a 5 = false) ∧ (∃ a ∈ [4, 5, 5], newer a 4 = true) ∧
        (highest [32768, 0] = 32768 ∧ ∀ a ∈ [32768, 0], newer a 32768 = false) ∧ (at_ id).start.log = [] ∧
        (at_ fun x => { x with log := [5] }).start.log ≠ []) ∧
      (be2 zero 0 % 128 = 74 - 74 ∧ ¬ 1 ≤ byteAt zero 2 ∧ 9 ≤ 9 ∧ 200 < 201 ∧ 232 < 233) :=
  ⟨fun _ _ h => OwnPhase.noConfusion h, by decide, by decide, by decide, by decide, by decide +kernel, by decide, by decide,
    by decide, by decide⟩

/-- The pin held by RST_RESET, with and without an own write under way. -/
theorem witness_ResetsAndStartUp_held :
    let held (w : RecordWriter) : State := { after .rstReset ready with writer := w }
    (held RecordWriter.zero).start.rstHeld = true ∧ (∀ a d, (held RecordWriter.zero).writer.phase ≠ .writing a d) ∧
      (held (writing (.writing 0x180 [1, 2])).writer).start.rstHeld = true ∧
      (held (writing (.writing 0x180 [1, 2])).writer).writer.phase = .writing 0x180 [1, 2] :=
  ⟨by decide, fun _ _ h => OwnPhase.noConfusion h, by decide, rfl⟩

/-- The vault's quota with room for one collection. -/
theorem witness_ResetsAndStartUp_quota :
    itemsOf .vault ready.writer.queue < 2 ∧ itemsOf .vault [.collection [] []] < 2 := by decide

/-- 23:59:59 is the last second of a day. -/
theorem witness_PowerFailAndClock :
    let s : State := { inCall .connected .answered with call := { (inCall .connected .answered).call with seq := some 10 } }
    (s.start.rstHeld = false ∧ s.pfw = false ∧ s.call.st = .connected ∧ s.call.seq = some 10) ∧
      (ready.call.st ≠ .connected ∧ ready.call.st ≠ .grace) ∧ ({ ready with pfw := true } : State).pfw = true ∧
      (({ ready with clock := ⟨0, 86399, true, some 1000⟩ } : State).clock.isSet = true ∧
        ({ ready with clock := ⟨0, 86399, true, some 1000⟩ } : State).clock.nextSecond = some 1000) := by decide

/-- Bounds: 86,399 seconds; 1 and 60 minutes, 0 and 61; channel sets 127 and 128; ACCOUNT_FAULT present and absent. -/
theorem witness_RequestsAndReasons :
    let serving := { ready with tamper := { Tamper.zero with context := .service } }
    (ready.start.rstHeld = false ∧ ready.start.phase ≠ .resetting ∧ ready.req.st = .idle ∧ ready.start.phase = .ready) ∧
      purging.start.phase ≠ .ready ∧ purging.start.phase ≠ .resetting ∧
      (86399#24).toNat ≤ 86399 ∧ 86399 < (86400#24).toNat ∧
      (1 ≤ (1#8).toNat ∧ (60#8).toNat ≤ 60 ∧ (0#8).toNat = 0 ∧ 60 < (61#8).toNat) ∧
      ready.vault.session ≠ .authorised ∧ (visit .authorised .inPlace).vault.session = .authorised ∧
      ready.vault.windowEnd = none ∧ (visit .unauthorised .inPlace).vault.windowEnd.isSome = true ∧
      (visit .authorised .inPlace).vault.windowEnd.isSome = true ∧
      (ready.dial.testMark = false ∧ ready.dial.st = .idle ∧ (reporting .awaitReady .awaitAnswer).dial.st ≠ .idle) ∧
      ({ Dialler.zero with testMark := true } : Dialler).testMark = true ∧
      (127#8).toNat < 128 ∧ 128 ≤ (128#8).toNat ∧
      ((3#8).toNat ≠ 0 ∧ (3#8).toNat ≠ 1 ∧ (3#8).toNat ≠ 2 ∧ (3#8).toNat ≠ 6) ∧
      ready.tamper.context ≠ .service ∧ serving.tamper.context = .service ∧
      ready.call.reasons.slotJam = false ∧ (withReasons ready jammed).call.reasons.slotJam = true ∧
      (withReasons ready frozenBy).call.reasons.flapFault = true ∧ (withReasons ready frozenBy).call.reasons.chuteBlocked = false ∧
      (withReasons ready { frozenBy with chuteBlocked := true }).call.reasons.chuteBlocked = true ∧
      (withReasons ready { Reasons.empty with chuteBlocked := true }).call.reasons.flapFault = false ∧
      ready.call.reasons.accountFault = false ∧
      (withReasons ready { Reasons.empty with accountFault := true }).call.reasons.accountFault = true := by decide

/-- The image of each code at its bounds: codes 0, 10 and 11; 86,399 and 86,400 seconds; 0, 1, 60 and 61 minutes; channel
sets 127 and 128; parameters of 62 bytes. -/
theorem witness_RequestsAndReasons_images :
    let image (c : Byte) (l : List Byte) : List Byte := c :: 0 :: l
    let sec (l : List Byte) : Nat := byteAt l 4 * 65536 + byteAt l 5 * 256 + byteAt l 6
    (byteAt (image 0 []) 0 = 0 ∧ 10 < byteAt (image 11 []) 0) ∧
      (2 ≤ byteAt (image 2 []) 0 ∧ byteAt (image 10 []) 0 ≤ 10 ∧ purging.start.phase ≠ .ready) ∧
      (byteAt (image 1 []) 0 = 1 ∧ sec (image 1 [0, 9, 1, 0x51, 0x7F]) ≤ 86399 ∧ 86399 < sec (image 1 [0, 9, 1, 0x51, 0x80])) ∧
      (byteAt (image 2 [1]) 0 = 2 ∧ 1 ≤ byteAt (image 2 [1]) 2 ∧ byteAt (image 2 [60]) 2 ≤ 60 ∧ byteAt (image 2 [0]) 2 = 0 ∧
        60 < byteAt (image 2 [61]) 2) ∧
      (byteAt (image 3 []) 0 = 3 ∧ byteAt (image 8 []) 0 = 8 ∧ byteAt (image 9 [6]) 0 = 9 ∧ byteAt (image 9 [6]) 2 = 6 ∧
        byteAt (image 9 [3]) 2 = 3) ∧
      (byteAt (image 10 [127]) 0 = 10 ∧ byteAt (image 10 [127]) 2 < 128 ∧ 128 ≤ byteAt (image 10 [128]) 2) ∧
      (List.replicate 62 (0 : Byte)).length ≤ 62 ∧
      ready.vault.overtime = false ∧ ({ Vault.zero with overtime := true } : Vault).overtime = true := by decide

/-- L = 9 and K = 4: sequence 10 is too new, 9 is the newest that may be acknowledged, 4 is already. -/
theorem witness_AckCallsMovesTheRing :
    let s := { ready with call := { CallControl.zero with nextSeq := 10, lastFinal := 9, ackedSeq := 4 } }
    let newerThan (a b : Nat) : Prop := 1 ≤ ((a : Int) - b) % 65536 ∧ ((a : Int) - b) % 65536 ≤ 32767
    (s.start.rstHeld = false ∧ s.start.phase = .ready ∧ s.req.st = .idle) ∧
      newerThan (10#16).toNat s.call.lastFinal ∧ ¬ newerThan (9#16).toNat s.call.lastFinal ∧
      newerThan (9#16).toNat s.call.ackedSeq ∧ ¬ newerThan (4#16).toNat s.call.lastFinal ∧
      ¬ newerThan (4#16).toNat s.call.ackedSeq :=
  ⟨by decide, ⟨by decide, by decide⟩, fun h => absurd h.1 (by decide), ⟨by decide, by decide⟩,
    fun h => absurd h.2 (by decide), fun h => absurd h.1 (by decide)⟩

theorem witness_AckCallsMovesTheRing_image : byteAt [6, 0, 0, 9] 0 = 6 ∧ be2 [6, 0, 0, 9] 2 = (9#16).toNat := by decide

theorem witness_AckIncidentsMovesTheLog :
    let s := { ready with inc := { Incidents.zero with nextLog := 300, lastLog := 299, ackedLog := 290 } }
    let newerThan (a b : Nat) : Prop := 1 ≤ ((a : Int) - b) % 65536 ∧ ((a : Int) - b) % 65536 ≤ 32767
    (s.start.rstHeld = false ∧ s.start.phase = .ready ∧ s.req.st = .idle) ∧
      newerThan (300#16).toNat s.inc.lastLog ∧ ¬ newerThan (299#16).toNat s.inc.lastLog ∧
      newerThan (299#16).toNat s.inc.ackedLog ∧ ¬ newerThan (290#16).toNat s.inc.ackedLog :=
  ⟨by decide, ⟨by decide, by decide⟩, fun h => absurd h.1 (by decide), ⟨by decide, by decide⟩,
    fun h => absurd h.1 (by decide)⟩

theorem witness_AckIncidentsMovesTheLog_image :
    byteAt [7, 0, 1, 43] 0 = 7 ∧ be2 [7, 0, 1, 43] 2 = (299#16).toNat := by decide

/-- The requests; the configuration pages 4 and 5 and the bank's first page, as reads of start-up and of a request. -/
theorem witness_TariffAndConfigRequests :
    let busy : State := { ready with tariff := { Tariff.zero with activation := .pending }, req := { ready.req with reload := .pending } }
    let checking (e : Option Nat) (l : List Byte) : State :=
      { ready with tariff := { Tariff.zero with check := some ⟨.a, e, l, 1⟩ } }
    (ready.start.rstHeld = false ∧ ready.start.phase = .ready ∧ ready.req.st = .idle) ∧
      (busy.tariff.activation ≠ .none ∧ busy.req.st = .idle) ∧
      (ready.tariff.activation = .none ∧ 1 < (2#8).toNat ∧ ready.tariff.bank = .a) ∧
      ((1#8).toNat ≤ 1 ∧ (if (1#8).toNat = 0 then Bank.a else .b) ≠ ready.tariff.bank) ∧
      busy.req.reload ≠ .none ∧ ready.req.reload = .none ∧ ready.call.st = .idle ∧ (inCall .connected .answered).call.st ≠ .idle ∧
      (let p : State := { ready with req := { ready.req with reload := .pending, pendCfg := some Settings.default } }
       p.req.reload = .pending ∧ p.req.pendCfg = some Settings.default ∧ ready.req.reload ≠ .pending) ∧
      ((reporting .requesting .released).dial.st = .requesting ∧ ready.req.cfg.reportNumber = [] ∧
        running.tamper.settling = .running ∧ ready.tamper.settling ≠ .running) ∧
      ({ ready with req := { ready.req with reading := some [] } } : State).req.reading = some [] ∧
      ((checking none []).tariff.check = some ⟨.a, none, [], 1⟩ ∧ (checking (some 7) [1]).tariff.check = some ⟨.a, some 7, [1], 1⟩) ∧
      (firstFail (headerChecks (List.replicate 64 0) none)).isSome = true := by decide

theorem witness_TariffAndConfigRequests_passes :
    (∀ x ∈ ([(true, ⟨2, 0, 2⟩)] : List Checked), x.1 = true) := by decide

/-- Bank codes 0, 1 and 2 with bank A active, and a reload, as images. -/
theorem witness_TariffAndConfigRequests_images :
    ready.start.phase = .ready ∧ byteAt [4, 0, 1, 0, 7] 0 = 4 ∧ byteAt [4, 0, 1, 0, 7] 2 = 1 ∧ byteAt [4, 0, 2] 2 = 2 ∧
      byteAt [4, 0, 0] 2 = 0 ∧ ready.tariff.bank = .a ∧ ready.tariff.activation = .none ∧ byteAt [5] 0 = 5 ∧
      ready.req.reload = .none := by decide

/-- 65 bytes from the last byte of a page: byte 0 is overwritten by byte 64. -/
theorem witness_StoredBytesWrapInTheirPage :
    memWf [] = true ∧ 0x7FFF < 32768 ∧ (64 < (List.replicate 65 1#8).length ∧ (List.replicate 65 1#8).length ≤ 64 + 64) ∧
      (∀ i < (List.replicate 65 1#8).length, 0x7F00 ≠ 0x7FFF / 64 * 64 + (0x7FFF % 64 + i) % 64) := by decide

theorem witness_HostLeavesProtectedPages :
    let c := Instr.hostVetoedWrite 0x0190 [1#8] .stop true
    memoryOk ready ∧ (∃ a d e k, c = .hostVetoedWrite a d e k) ∧ exec c ready = .next (after c ready) ∧ alwaysVetoed (0x0190 / 64) ∧
      (let k := Instr.memoryPoll true
       let held := linked (fun l => { l with held := some (.write 0x7FFF [1#8] .stop) }) (writing .polling)
       memoryOk held ∧ (∃ a, k = .memoryPoll a) ∧ exec k held = .next (after k held)) ∧
      alwaysVetoed 0 ∧ alwaysVetoed 9 ∧ alwaysVetoed 74 ∧ alwaysVetoed 233 ∧ ¬ alwaysVetoed 10 ∧ ¬ alwaysVetoed 234 :=
  ⟨⟨rfl, rfl, rfl⟩, ⟨_, _, _, _, rfl⟩, rfl, by unfold alwaysVetoed; decide, ⟨⟨rfl, rfl, rfl⟩, ⟨_, rfl⟩, rfl⟩,
    by unfold alwaysVetoed; decide, by unfold alwaysVetoed; decide, by unfold alwaysVetoed; decide, by unfold alwaysVetoed; decide, by unfold alwaysVetoed; decide,
    by unfold alwaysVetoed; decide⟩

/-- The request page of a request in work, and the first and last page of the active bank; each bank active. -/
theorem witness_HostLeavesProtectedPages_classified :
    let s : State := { ready with req := { ready.req with st := .working } }
    let onB : State := { ready with tariff := { Tariff.zero with bank := .b } }
    memoryOk s ∧ (HostTxn.write 0x0040 [1] .stop).inMemory = true ∧ guardRole s (0x0040 / 64) = .vetoed ∧
      (ready.tariff.bank = .a ∧ 10 ≤ 10 ∧ 41 ≤ 41) ∧ (onB.tariff.bank = .b ∧ 42 ≤ 42 ∧ 73 ≤ 73) :=
  ⟨⟨rfl, rfl, rfl⟩, rfl, rfl, by decide, by decide⟩

theorem witness_OnlyWritesChangeMemory :
    exec .entry ready = .next (after .entry ready) ∧ (∀ a d e k, Instr.entry ≠ .hostPassedWrite a d e k) ∧
      (∀ a d e k, Instr.entry ≠ .hostVetoedWrite a d e k) ∧ (∀ a d, Instr.entry ≠ .busError (.inWrite a d)) ∧
      (∀ a d, Instr.entry ≠ .clockHoldLimit (.inWrite a d)) ∧ Instr.entry ≠ .powerOnReset ∧
      Instr.entry ≠ .rstReset ∧ Instr.entry ≠ .ownWriteStop ∧ Instr.entry ≠ .memoryFault ∧ ready.link.held = none ∧
      Instr.entry ≠ .ownWriteConfirmed ∧ Instr.entry ≠ .ownReadComplete ∧ (∀ k, Instr.entry ≠ .memoryPoll k) ∧
      (∀ x, Instr.entry ≠ .ownAttemptFailure x) ∧ (writing .polling).writer.phase ≠ .awaiting :=
  ⟨rfl, by simp, by simp, by simp, by simp, by simp, by simp, by simp, by simp, rfl, by simp, by simp, by simp, by simp, by decide⟩

/-- Page 6 is vetoed, page 234 passed; a request at 0x0040 whose code is 1, and a write that leaves the code byte out. -/
theorem witness_HostWrites :
    (3 ≤ 3 ∧ 5 ≤ 5 ∧ ready.req.reading = none ∧ ready.req.reload = .none) ∧
      (Bank.a = .a ∧ 10 ≤ 10 ∧ 41 ≤ 41 ∧ Bank.b = .b ∧ 42 ≤ 42 ∧ 73 ≤ 73) ∧
      guardRole { ready with tariff := { Tariff.zero with bankSet := true } } 73 = .passed ∧ 234 ≤ 234 ∧ 233 ≤ 233 ∧
    (0x7FFF#16 : Addr).toNat < 0x8000 ∧ [1#8] ≠ [] ∧ ready.start.phase ≠ .resetting ∧ ready.link.held = none ∧
      ready.writer.phase.running = false ∧ (writing .awaiting).writer.phase = .awaiting ∧
      (writing .polling).writer.phase.running = false ∧
      guardRole ready ((0x3A90#16 : Addr).toNat / 64) = .passed ∧ (0x3A90#16 : Addr).toNat / 64 ≠ 1 ∧
      (WriteEnd.stop = .stop ∧ true = true) ∧ (WriteEnd.refusedByte = .refusedByte ∧ false = false) ∧
      (guardRole ready ((0x0040#16 : Addr).toNat / 64) = .passed ∧ (0x0040#16 : Addr).toNat / 64 = 1 ∧
        pageWrap (0x0040#16 : Addr).toNat 0 = 0x40 ∧ byteAt (imageWith ready.link.image 0x40 [1#8] 0) 0 ≠ 0) ∧
      ¬ (∃ i < 1, pageWrap (0x0041#16 : Addr).toNat i = 0x40) ∧
      guardRole ready ((0x0190#16 : Addr).toNat / 64) = .vetoed := by decide

/-- An image, and data that wrap in the page: 65 bytes, of which the last overwrites the first, and the byte that two bytes
from 0x3F leave alone. -/
theorem witness_HostWrites_image :
    ready.link.image.length = 64 ∧ (0 < 65 ∧ ¬ 65 ≤ 0 + 64) ∧ (1 < 65 ∧ 65 ≤ 1 + 64) ∧
      (∀ i < ([1, 2] : List Byte).length, 5 ≠ (0x3F + i) % 64) := by decide

/-- RESETTING and READY; each view of the live page; a slot in use and an empty one. -/
theorem witness_HostReads :
    let view (v : Byte) : State := linked (fun l => { l with image := List.replicate 63 0#8 ++ [v] }) ready
    (State.reset.start.phase = .resetting ∧ (0x7FFF#16 : Addr).toNat < 0x8000) ∧
      (ready.start.phase ≠ .resetting ∧ ready.link.held = none ∧ ready.writer.phase.running = false ∧
        (writing .awaiting).writer.phase = .awaiting ∧ (writing .polling).writer.phase.running = false) ∧
      (byteAt (view 0).link.image 0x3F = 0 ∧ 3 < byteAt (view 4).link.image 0x3F ∧ byteAt (view 1).link.image 0x3F = 1 ∧
        byteAt (view 2).link.image 0x3F = 2 ∧ byteAt (view 3).link.image 0x3F = 3) ∧
      (ready.vault.summary = none ∧ (vaulted (fun v => { v with summary := some ⟨1, 0, .collection⟩ }) ready).vault.summary
        = some ⟨1, 0, .collection⟩) ∧
      (ready.inc.slots.get .slotJam = none ∧ (withSlot ready .slotJam slot).inc.slots.get .slotJam = some slot) ∧
      (ready.tariff.activation = .none ∧ ({ Tariff.zero with activation := .pending } : Tariff).activation ≠ .none) :=
  ⟨⟨rfl, by decide⟩, by decide, by decide, by decide, by decide, by decide⟩

theorem witness_HeldAndBrokenTransactions :
    (ready.start.phase ≠ .resetting ∧ (0x7FFF#16 : Addr).toNat < 0x8000 ∧ ready.link.held = none) ∧
      ((writing (.writing 0x180 [1])).writer.phase.running = true ∧ (writing (.writing 0x180 [1])).link.held = none) ∧
      (ready.writer.phase.running = false ∧ (linked (fun l => { l with lastWriter := .own }) ready).link.lastWriter = .own ∧
        ready.link.lastWriter ≠ .own) ∧
      (let s := linked (fun l => { l with held := some (.read 0x7FFF 2 false) }) (writing .polling)
       s.start.rstHeld = false ∧ s.writer.phase = .polling ∧ s.link.held = some (.read 0x7FFF 2 false) ∧ s.link.openTxn = none) ∧
      (ready.writer.phase = .idle ∧ guardRole ready ((0x3A90#16 : Addr).toNat / 64) = .passed ∧
        guardRole ready ((0x0190#16 : Addr).toNat / 64) = .vetoed ∧
        guardRole ready ((0x0041#16 : Addr).toNat / 64) = .passed ∧ (0x0041#16 : Addr).toNat / 64 = 1) ∧
      (linked (fun l => { l with held := some (.read 0x7FFF 2 true) }) (writing .polling)).link.held
        = some (.read 0x7FFF 2 true) ∧
      (linked (fun l => { l with held := some (.probe none false) }) ready).link.held.isSome = true := by decide

/-- A held write in each phase of the record writer, with the limits that run out, behind an open transaction and not; and the
other kinds held. -/
theorem witness_HeldAndBrokenTransactions_held :
    let x : HostTxn := .write 0x7FFF [1] .stop
    let held (p : OwnPhase) : State := linked (fun l => { l with held := some x, lastWriter := .own, openTxn := some ⟨true, true⟩ })
      { writing p with writer := { (writing p).writer with limit := some 10 } }
    ((held .polling).start.phase ≠ .resetting ∧ (held .polling).start.rstHeld = false ∧ (held .polling).link.held = some x ∧
        (held .polling).writer.phase.running = false ∧ (held .polling).writer.phase = .polling ∧
        (held .polling).writer.limit = some 10) ∧
      ((held .awaiting).writer.phase = .awaiting ∧ (held .awaiting).writer.earlier = none ∧
        ({ (held .awaiting).writer with earlier := some (0x180, [0]) } : RecordWriter).earlier = some (0x180, [0])) ∧
      ((held (.reading 0xC0)).writer.phase = .reading 0xC0 ∧ (held (.writing 0x180 [1])).writer.phase = .writing 0x180 [1] ∧
        0 < [1#8].length) ∧
      ((held .idle).writer.phase = .idle ∧ (held .idle).link.lastWriter = .own ∧ 10 = (held .idle).link.stopTime + 10) ∧
      (linked (fun l => { l with held := some (.probe none true) }) ready).link.held = some (.probe none true) := by decide

theorem witness_OwnTransactions :
    (let s := writing .idle
     s.start.rstHeld = false ∧ s.link.held = none ∧ s.link.openTxn = none ∧ s.writer.queue = .vaultUpdate :: [] ∧
       s.writer.phase = .idle ∧ s.pfw = false) ∧
      (writing .awaiting).writer.phase ≠ .idle ∧
      (({ writing .idle with pfw := true } : State).pfw = true ∧ (writing .idle).writer.begun = false ∧
        isCheckpoint .vaultUpdate = false ∧ isCheckpoint (.record ⟨9, .checkpoint, []⟩) = true) ∧
      (writing (.writing 0x180 [1, 2])).writer.phase = .writing 0x180 [1, 2] ∧ (writing .awaiting).writer.phase = .awaiting ∧
      (isCollection (.collection [] []) = true ∧ (writing .awaiting).writer.part = 0) ∧
      (writing .polling).writer.phase = .polling ∧
      (let s : State := { ready with writer := { RecordWriter.zero with queue := [.read .config 3], phase := .reading 0xC0, begun := true } }
       s.writer.phase = .reading 0xC0 ∧ s.writer.queue = .read .config 3 :: []) := by decide

/-- A host transaction held, and one open, while the record writer could start or polls. -/
theorem witness_OwnTransactions_waits :
    let opened (p : OwnPhase) : State := linked (fun l => { l with openTxn := some ⟨false, false⟩ }) (writing p)
    (opened .idle).link.openTxn ≠ none ∧ ((opened .polling).writer.phase = .polling ∧ (opened .polling).link.held = none ∧
      (opened .polling).link.openTxn ≠ none) ∧
      (linked (fun l => { l with held := some (.probe none false) }) (writing .idle)).link.held ≠ none := by decide

/-- The second attempt, after which one more is made, and the third; an unconfirmed write with and without what stood there. -/
theorem witness_AttemptsAndDrops :
    let at_ (p : OwnPhase) (n : Nat) : State :=
      { writing p with writer := { (writing p).writer with tries := n, limit := some 10 } }
    ((at_ .polling 1).start.rstHeld = false ∧ (at_ .polling 1).link.held = none ∧ (at_ .polling 1).writer.queue = .vaultUpdate :: [] ∧
      (at_ .polling 1).writer.phase = .polling ∧ (at_ .polling 1).writer.limit = some 10 ∧
      (at_ .polling 1).writer.tries + 1 < 3 ∧ ¬ (at_ .polling 2).writer.tries + 1 < 3) ∧
      ((at_ .awaiting 0).writer.phase = .awaiting ∧ (at_ .awaiting 0).writer.earlier = none ∧
        ({ (at_ .awaiting 0).writer with earlier := some (0x180, [0]) } : RecordWriter).earlier = some (0x180, [0])) ∧
      ((at_ (.writing 0x180 [1]) 0).writer.phase = .writing 0x180 [1] ∧ 0 < [1#8].length) ∧
      (at_ (.reading 0xC0) 0).writer.phase = .reading 0xC0 ∧
      (⟨9, .closed, []⟩ : CallRecord).kind = .closed ∧ (⟨9, .openRec, []⟩ : CallRecord).kind = .openRec ∧
      (⟨9, .checkpoint, []⟩ : CallRecord).kind = .checkpoint ∧ (⟨9, .rewrite, []⟩ : CallRecord).kind = .rewrite := by decide

/-- Each place a record can go: beside its own OPEN record, to a held one, to the tail, to the front, and held; and a
collection at the quota, below it, behind a held update and onto a held collection. -/
theorem witness_RecordsJoinTheQueue :
    let r (k : RecordKind) : CallRecord := ⟨9, k, []⟩
    let q (l : List Item) (h : List CallRecord) : State :=
      { ready with writer := { RecordWriter.zero with queue := l }, call := { ready.call with heldRecords := h } }
    let other : Item := .record ⟨8, .closed, []⟩
    let c : Collection := ⟨1, .epochStart, 1, Stamp.zero, false, false, Counts.zero, 0⟩
    let b : PageB := ⟨Counts.zero, 1, 1⟩
    let vaultHolds (l : List VaultHeld) : State := vaulted (fun v => { v with held := l }) ready
    (((q [other, .record (r .openRec)] []).writer.waiting.any (isProvisional 9) = true ∧ (r .checkpoint).kind = .checkpoint) ∧
      ((q [other, .record (r .openRec)] []).writer.waiting = [other] ++ .record (r .openRec) :: [] ∧
        (∀ y ∈ [other], isProvisional 9 y = false) ∧ isProvisional 9 (.record (r .openRec)) = true ∧
        (r .closed).kind ≠ .checkpoint ∧ isCheckpoint (.record (r .openRec)) = false) ∧
      ((q [.record (r .checkpoint), other] []).writer.waiting = [] ++ .record (r .checkpoint) :: ([] ++ other :: []) ∧
        isProvisional 9 (.record (r .checkpoint)) = true ∧ isCheckpoint (.record (r .checkpoint)) = true ∧
        isEarlier 9 other = true) ∧
      ((q [] [r .openRec]).writer.waiting.any (isProvisional 9) = false ∧
        ∃ x ∈ (q [] [r .openRec]).call.heldRecords, x.seq = (r .closed).seq) ∧
      ((∀ x ∈ (q [other] []).call.heldRecords, x.seq ≠ 9) ∧ (q [other] []).call.heldRecords = [] ∧
        itemsOf .call (q [other] []).writer.queue < 2) ∧
      2 ≤ itemsOf .call (q [other, other] []).writer.queue) ∧
    (ready.call.reasons.accountFault = false ∧ itemsOf .vault ready.writer.queue < 2 ∧ ready.vault.held = [] ∧
      2 ≤ itemsOf .vault (q [.vaultUpdate, .vaultUpdate] []).writer.queue ∧
      ((vaultHolds [.update]).vault.held ≠ [] ∧ ∀ x ∈ (vaultHolds [.update]).vault.held, x = .update) ∧
      ((vaultHolds [.update, .collection c b]).vault.held = [.update] ++ .collection c b :: [] ∧
        ∀ z ∈ [VaultHeld.update], z = .update)) ∧
    ((2 = min (q [] [r .openRec, r .closed]).call.heldRecords.length (2 - itemsOf .call (q [] []).writer.queue) ∧
        ∀ x ∈ (q [] [r .openRec, r .closed]).call.heldRecords.take 2, x.kind ≠ .checkpoint) ∧
      ((q [other] [r .checkpoint]).call.heldRecords = r .checkpoint :: [] ∧ itemsOf .call (q [other] []).writer.queue < 2) ∧
      (withReasons ready { Reasons.empty with accountFault := true }).call.reasons.accountFault = true ∧
      2 = min (vaultHolds [.update, .collection c b]).vault.held.length (2 - itemsOf .vault ready.writer.queue) ∧
      (1 ≤ itemsOf .request (q [.response []] []).writer.queue ∧ itemsOf .request ready.writer.queue = 0 ∧
        ready.req.heldResponse = none ∧ ready.req.wantRead = none ∧
        ({ ready.req with heldResponse := some [] } : Requests).heldResponse = some [] ∧
        ({ ready.req with wantRead := some 3 } : Requests).wantRead = some 3) ∧
      (1 ≤ itemsOf .rating (q [.bankSwitch .a 0] []).writer.queue ∧ itemsOf .rating ready.writer.queue = 0 ∧
        ready.tariff.heldSwitch = false ∧ ready.tariff.wantRead = none ∧
        ({ Tariff.zero with heldSwitch := true } : Tariff).heldSwitch = true ∧
        ({ Tariff.zero with wantRead := some 10 } : Tariff).wantRead = some 10) ∧
      (ready.start.want = none ∧ ({ ready.start with want := some (.log, 202) } : Startup).want = some (.log, 202) ∧
        itemsOf .incident ready.writer.queue < 6 ∧ ¬ itemsOf .call (q [other, other] []).writer.queue < 2)) ∧
    (List.replicate 59 1#8).length ≤ 59 := by decide

end Sys2Proof.Tests
end

section
/-!
PROOFS. SLOTGATE follows its rule (R2). Every command that goes on ends in `complete`, so the pins that follow conditions
stand at their rules in the state it leaves; the gate rule, read condition by condition, is then the statement.
-/

namespace Sys2Proof.Machine

/-! ### The gate rule in words (R2) -/

theorem acceptsCoins_iff (c : CallState) : c.acceptsCoins = true ↔
    c = .collect ∨ c = .awaitDeposit ∨ c = .dialling ∨ c = .ringing ∨ c = .connected ∨ c = .grace ∨ c = .afterCall := by
  cases c <;> decide

theorem closesGate_eq_false_iff (r : Reasons) : r.closesGate = false ↔
    r.slotJam = false ∧ r.chuteBlocked = false ∧ r.flapFault = false ∧ r.tariffFault = false ∧ r.configFault = false := by
  simp [Reasons.closesGate, and_assoc]

/-- The routing-blocking reasons are all eight there are (R83). -/
theorem blocksRouting_eq_false_iff (r : Reasons) : r.blocksRouting = false ↔ r = Reasons.empty := by
  cases r
  simp [Reasons.blocksRouting, Reasons.empty, and_assoc]

theorem coinsWanted_iff (s : State) : coinsWanted s = true ↔
    s.start.phase = .ready ∧ s.call.st.acceptsCoins = true ∧ s.call.reasons.closesGate = false ∧
      (s.call.st = .collect ∨ s.call.st = .awaitDeposit → s.call.reasons.blocksRouting = false) ∧ s.pfw = false := by
  simp [coinsWanted, and_assoc, imp_iff_not_or]

theorem gateRule_iff (s : State) : gateRule s = true ↔
    coinsWanted s = true ∧ s.coin.escrow.length + s.coin.transit.length < 10 - s.req.cfg.almostFull := by
  simp [gateRule]

/-! ### The pins after a command -/

/-- If the command goes on, the pins that follow conditions stand at their rules. -/
def PinsFollowAfter (o : Host.Outcome State Fault Refusal) : Prop := ∀ t, o = .next t → pinsFollow t

/-- No rule reads the pins that the refresh writes. -/
theorem pinsFollow_refreshPins (s : State) : pinsFollow (refreshPins s) := ⟨rfl, rfl, rfl⟩

theorem pinsFollowAfter_complete (s : State) : PinsFollowAfter (complete s) := fun _ h =>
  complete_eq h ▸ pinsFollow_refreshPins s

theorem pinsFollowAfter_addressed (a : Addr) (s : State) (f : State → State) : PinsFollowAfter (addressed a s f) := by
  unfold addressed
  split
  · exact fun _ h => nomatch h
  · exact pinsFollowAfter_complete _

/-! The meanings that may stop at a word address (log 9), or that choose between two ends. -/

theorem pinsFollowAfter_execPfwAssert (s : State) : PinsFollowAfter (execPfwAssert s) := by
  unfold execPfwAssert
  split <;> exact pinsFollowAfter_complete _

theorem pinsFollowAfter_execPfwClear (s : State) : PinsFollowAfter (execPfwClear s) := by
  unfold execPfwClear
  split <;> exact pinsFollowAfter_complete _

theorem pinsFollowAfter_execClockSecond (s : State) : PinsFollowAfter (execClockSecond s) := by
  unfold execClockSecond
  split <;> exact pinsFollowAfter_complete _

theorem pinsFollowAfter_execHostAddressProbe (a : Option Addr) (k : HostCourse) (s : State) :
    PinsFollowAfter (execHostAddressProbe a k s) := by
  unfold execHostAddressProbe
  split
  · exact pinsFollowAfter_complete _
  · exact pinsFollowAfter_addressed _ _ _

theorem pinsFollowAfter_execBusError (x : BrokenAt) (s : State) : PinsFollowAfter (execBusError x s) := by
  unfold execBusError
  split
  case h_1 | h_4 => exact pinsFollowAfter_complete _
  case h_2 | h_3 => exact pinsFollowAfter_addressed _ _ _

theorem pinsFollowAfter_execClockHoldLimit (x : HoldPoint) (s : State) : PinsFollowAfter (execClockHoldLimit x s) := by
  unfold execClockHoldLimit
  split
  case h_1 | h_2 | h_5 => exact pinsFollowAfter_complete _
  case h_3 | h_4 => exact pinsFollowAfter_addressed _ _ _

/-- Each command not named here is one `complete`. -/
theorem pinsFollowAfter_exec (c : Instr) (s : State) : PinsFollowAfter (exec c s) := by
  cases c with
  | pfwAssert => exact pinsFollowAfter_execPfwAssert s
  | pfwClear => exact pinsFollowAfter_execPfwClear s
  | clockSecond => exact pinsFollowAfter_execClockSecond s
  | hostPassedWrite | hostVetoedWrite | hostRandomRead =>
    unfold exec
    exact pinsFollowAfter_addressed _ _ _
  | hostAddressProbe a k => exact pinsFollowAfter_execHostAddressProbe a k s
  | busError x => exact pinsFollowAfter_execBusError x s
  | clockHoldLimit x => exact pinsFollowAfter_execClockHoldLimit x s
  | _ => exact pinsFollowAfter_complete _

/-- Settles O8: the command leaves SLOTGATE at the gate rule, whose conditions are those of R2. -/
theorem gateFollowsRule : Obligations.GateFollowsRule := by
  intro c s t h
  obtain ⟨hgate, -, -⟩ := pinsFollowAfter_exec c s t h
  rw [hgate, gateRule_iff, coinsWanted_iff, acceptsCoins_iff, closesGate_eq_false_iff, blocksRouting_eq_false_iff]
  exact ⟨fun ⟨⟨ready, accepts, noClosing, noBlocking, powered⟩, room⟩ =>
      ⟨ready, accepts, noClosing, noBlocking, room, powered⟩,
    fun ⟨ready, accepts, noClosing, noBlocking, room, powered⟩ =>
      ⟨⟨ready, accepts, noClosing, noBlocking, powered⟩, room⟩⟩

end Sys2Proof.Machine
end

section
/-!
PROOFS. MUTE, PIP and the PIP pattern follow their rules (R109, R44). Every command that goes on leaves a state that the refresh
of the pins has made, and the refresh puts the pattern in the row of the present condition.
-/

namespace Sys2Proof.Machine

/-! ### The rules in words (R109, R44) -/

theorem muteRule_iff (l : Line) : muteRule l = true ↔ l.owner = .report ∨ (l.owner = .call ∧ l.st = .sending) := by
  simp [muteRule]

theorem pipRule_iff (s : State) : pipRule s = true ↔
    s.pipGen.high = true ∧ s.line.owner = .call ∧ muteRule s.line = false := by
  simp [pipRule, and_assoc]

theorem pipModeNow_eq (s : State) : pipModeNow s = if s.call.st = .grace then .fast
    else if s.call.st = .connected ∧ s.acct.lowCredit = true then .slow else .off := by
  simp [pipModeNow]

/-! ### The pattern after a refresh -/

/-- The pattern stands in the row of the present condition; without a row it has no active part (R44). -/
def patternFollows (s : State) : Prop :=
  s.pipGen.mode = pipModeNow s ∧ (s.pipGen.mode = .off → s.pipGen.high = false)

/-- A pattern left alone and one begun are in a row; the one that no row applies to is zero. The row reads no pattern. -/
theorem patternFollows_refreshPip (s : State) : patternFollows (refreshPip s) := by
  unfold refreshPip
  dsimp only
  split
  case isTrue off => exact ⟨off.symm, fun _ => rfl⟩
  case isFalse inRow =>
    split
    case isTrue same => exact ⟨same.symm, fun off => absurd (same.trans off) inRow⟩
    case isFalse => exact ⟨rfl, fun off => absurd off inRow⟩

/-- The pins are no part of the pattern or of its condition. -/
theorem patternFollows_refreshPins (s : State) : patternFollows (refreshPins s) := patternFollows_refreshPip s

/-! ### Every command ends in the refresh -/

/-- If the command goes on, the refresh of the pins made its next state. -/
def EndsInRefresh (o : Host.Outcome State Fault Refusal) : Prop := ∀ t, o = .next t → ∃ s, t = refreshPins s

theorem endsInRefresh_complete (s : State) : EndsInRefresh (complete s) := fun _ h => ⟨s, complete_eq h⟩

theorem endsInRefresh_addressed (a : Addr) (s : State) (f : State → State) : EndsInRefresh (addressed a s f) := by
  unfold addressed
  split
  · exact fun _ h => nomatch h
  · exact endsInRefresh_complete _

/-- Commands that name a word address may stop (log 9); three choose between two ends; each other one is one `complete`. -/
theorem endsInRefresh_exec (c : Instr) (s : State) : EndsInRefresh (exec c s) := by
  cases c with
  | pfwAssert | pfwClear | clockSecond =>
    simp only [exec, execPfwAssert, execPfwClear, execClockSecond]
    split <;> exact endsInRefresh_complete _
  | hostPassedWrite | hostVetoedWrite | hostRandomRead =>
    simp only [exec]
    exact endsInRefresh_addressed _ _ _
  | hostAddressProbe =>
    simp only [exec, execHostAddressProbe]
    split
    case h_1 => exact endsInRefresh_complete _
    case h_2 => exact endsInRefresh_addressed _ _ _
  | busError =>
    simp only [exec, execBusError]
    split
    case h_1 | h_4 => exact endsInRefresh_complete _
    case h_2 | h_3 => exact endsInRefresh_addressed _ _ _
  | clockHoldLimit =>
    simp only [exec, execClockHoldLimit]
    split
    case h_1 | h_2 | h_5 => exact endsInRefresh_complete _
    case h_3 | h_4 => exact endsInRefresh_addressed _ _ _
  | _ => exact endsInRefresh_complete _

theorem patternFollows_of_exec {c : Instr} {s t : State} (h : exec c s = .next t) : patternFollows t := by
  obtain ⟨u, rfl⟩ := endsInRefresh_exec c s t h
  exact patternFollows_refreshPins u

/-- Settles O9: the command leaves MUTE and PIP at their rules, and the pattern in the row of the condition. -/
theorem muteAndPipFollowRules : Obligations.MuteAndPipFollowRules := by
  intro c s t h
  obtain ⟨-, hmute, hpip⟩ := pinsFollowAfter_exec c s t h
  obtain ⟨hmode, hlow⟩ := patternFollows_of_exec h
  refine ⟨?_, ?_, ?_, fun off => ⟨hlow off, ?_⟩⟩
  · rw [hmute, muteRule_iff]
  · rw [hpip, hmute, pipRule_iff]
  · rw [hmode, pipModeNow_eq]
  · rw [hpip, pipRule, hlow off, Bool.false_and, Bool.false_and]

end Sys2Proof.Machine
end

section
/-!
PROOFS. The step and its stops. A command either stops at a word address that the memory does not have, or ends in `complete`
(log 9); so every well-formed command goes on.
-/

namespace Sys2Proof.Machine

open Sys2Proof.Laws

/-! ### The stop -/

theorem inMemory_eq_false_iff (a : Addr) : inMemory a = false ↔ 0x8000 ≤ a.toNat := by
  unfold inMemory memorySize
  rw [decide_eq_false_iff_not, not_lt]

theorem addressed_outside {a : Addr} {s : State} (hp : s.start.phase ≠ .resetting) (ha : 0x8000 ≤ a.toNat)
    (f : State → State) : addressed a s f = .fault .hostAddressOutsideMemory :=
  if_pos ⟨hp, (inMemory_eq_false_iff a).mpr ha⟩

theorem addressed_inside {a : Addr} {s : State} (h : s.start.phase = .resetting ∨ a.toNat < 0x8000)
    (f : State → State) : addressed a s f = complete (f s) := by
  refine if_neg fun ⟨hp, ha⟩ => ?_
  have := (inMemory_eq_false_iff a).mp ha
  rcases h with h | h
  · exact hp h
  · omega

/-- The commands that name the word address `a`. -/
def Names (c : Instr) (a : Addr) : Prop :=
  ∃ (data : List Byte) (e : WriteEnd) (ack : Bool) (v : HostCourse) (n : Nat),
    c = .hostPassedWrite a data e ack ∨ c = .hostVetoedWrite a data e ack ∨ c = .hostAddressProbe (some a) v ∨
      c = .hostRandomRead a n v ∨ c = .busError (.inWrite a data) ∨ c = .busError (.inRead (some a) n) ∨
      c = .clockHoldLimit (.inWrite a data) ∨ c = .clockHoldLimit (.inRead (some a) n)

theorem names_of_mem {c : Instr} {a : Addr} (h : a ∈ c.wordAddresses) : Names c a := by
  unfold Names
  cases c with
  | hostPassedWrite b data e ack =>
    obtain rfl : a = b := List.mem_singleton.mp h
    exact ⟨data, e, ack, ⟨ack, ack⟩, 0, .inl rfl⟩
  | hostVetoedWrite b data e ack =>
    obtain rfl : a = b := List.mem_singleton.mp h
    exact ⟨data, e, ack, ⟨ack, ack⟩, 0, by simp⟩
  | hostAddressProbe b v =>
    cases b with
    | none => exact absurd h List.not_mem_nil
    | some b =>
      obtain rfl : a = b := List.mem_singleton.mp h
      exact ⟨[], .stop, true, v, 0, by simp⟩
  | hostRandomRead b n v =>
    obtain rfl : a = b := List.mem_singleton.mp h
    exact ⟨[], .stop, true, v, n, by simp⟩
  | busError x =>
    rcases x with acked | ⟨b, data⟩ | ⟨_ | b, n⟩
    case inAddress | inRead.none => exact absurd h List.not_mem_nil
    case inWrite =>
      obtain rfl : a = b := List.mem_singleton.mp h
      exact ⟨data, .stop, true, ⟨true, true⟩, 0, by simp⟩
    case inRead.some =>
      obtain rfl : a = b := List.mem_singleton.mp h
      exact ⟨[], .stop, true, ⟨true, true⟩, n, by simp⟩
  | clockHoldLimit x =>
    rcases x with _ | _ | ⟨b, data⟩ | ⟨_ | b, n⟩
    case atAcknowledge | inAddress | inRead.none => exact absurd h List.not_mem_nil
    case inWrite =>
      obtain rfl : a = b := List.mem_singleton.mp h
      exact ⟨data, .stop, true, ⟨true, true⟩, 0, by simp⟩
    case inRead.some =>
      obtain rfl : a = b := List.mem_singleton.mp h
      exact ⟨[], .stop, true, ⟨true, true⟩, n, by simp⟩
  | _ => exact absurd h List.not_mem_nil

/-- A command that names a word address is guarded by it. -/
theorem exec_of_names {c : Instr} {a : Addr} (h : Names c a) (s : State) : ∃ f, exec c s = addressed a s f := by
  obtain ⟨data, e, ack, v, n, h⟩ := h
  rcases h with rfl | rfl | rfl | rfl | rfl | rfl | rfl | rfl <;>
    simp only [exec, execHostPassedWrite, execHostVetoedWrite, execHostAddressProbe, execHostRandomRead, execBusError,
      execClockHoldLimit] <;> exact ⟨_, rfl⟩

/-- Outside RESETTING a named address that the memory does not have stops the command. -/
theorem exec_outside {c : Instr} {s : State} {a : Addr} (hn : Names c a) (hp : s.start.phase ≠ .resetting)
    (ha : 0x8000 ≤ a.toNat) : exec c s = .fault .hostAddressOutsideMemory := by
  obtain ⟨f, hf⟩ := exec_of_names hn s
  rw [hf, addressed_outside hp ha]

/-- A command that names no word address ends in `complete`. -/
theorem exec_unaddressed {c : Instr} (h : c.wordAddresses = []) (s : State) : ∃ u, exec c s = complete u := by
  cases c with
  | pfwAssert | pfwClear | clockSecond =>
    simp only [exec, execPfwAssert, execPfwClear, execClockSecond]
    split <;> exact ⟨_, rfl⟩
  | hostPassedWrite | hostVetoedWrite | hostRandomRead => exact absurd h (List.cons_ne_nil _ _)
  | hostAddressProbe a k =>
    cases a with
    | none => exact ⟨_, rfl⟩
    | some a => exact absurd h (List.cons_ne_nil _ _)
  | busError x =>
    rcases x with acked | ⟨a, data⟩ | ⟨_ | a, n⟩
    case inWrite | inRead.some => exact absurd h (List.cons_ne_nil _ _)
    case inAddress | inRead.none => exact ⟨_, rfl⟩
  | clockHoldLimit x =>
    rcases x with _ | _ | ⟨a, data⟩ | ⟨_ | a, n⟩
    case inWrite | inRead.some => exact absurd h (List.cons_ne_nil _ _)
    case atAcknowledge | inAddress | inRead.none => exact ⟨_, rfl⟩
  | _ => exact ⟨_, rfl⟩

/-- A command that names addresses of the memory only, or is sent in RESETTING, ends in `complete`. -/
theorem exec_complete {c : Instr} {s : State} (h : s.start.phase = .resetting ∨ ∀ a ∈ c.wordAddresses, a.toNat < 0x8000) :
    ∃ u, exec c s = complete u := by
  rcases hw : c.wordAddresses with _ | ⟨a, l⟩
  · exact exec_unaddressed hw s
  · have ha : a ∈ c.wordAddresses := hw ▸ List.mem_cons_self
    obtain ⟨f, hf⟩ := exec_of_names (names_of_mem ha) s
    exact ⟨f s, hf.trans (addressed_inside (h.imp id fun k => k a ha) f)⟩

/-- What a command comes to. -/
theorem exec_cases (c : Instr) (s : State) :
    (∃ u, exec c s = complete u) ∨
      exec c s = .fault .hostAddressOutsideMemory ∧ s.start.phase ≠ .resetting ∧ ∃ a, 0x8000 ≤ a.toNat ∧ Names c a := by
  by_cases h : s.start.phase = .resetting ∨ ∀ a ∈ c.wordAddresses, a.toNat < 0x8000
  · exact .inl (exec_complete h)
  · push Not at h
    obtain ⟨hp, a, hmem, ha⟩ := h
    have hn := names_of_mem hmem
    exact .inr ⟨exec_outside hn hp ha, hp, a, ha, hn⟩

/-- Settles O3: a stop is at a word address outside the memory, and there the command stops. -/
theorem addressOutsideMemoryFaults : Obligations.AddressOutsideMemoryFaults := by
  refine ⟨fun a data e ack v n s hp ha => ?_, fun c s f hf => ?_, fun c s r hr => ?_⟩
  · have stops {c : Instr} (h : Names c a) : exec c s = .fault .hostAddressOutsideMemory := exec_outside h hp ha
    refine ⟨stops ?_, stops ?_, stops ?_, stops ?_, stops ?_, stops ?_, stops ?_, stops ?_⟩ <;>
      exact ⟨data, e, ack, v, n, by simp⟩
  · rcases exec_cases c s with ⟨u, hu⟩ | ⟨-, hp, a, ha, data, e, ack, v, n, hc⟩
    · rw [hu] at hf
      cases hf
    · exact ⟨hp, a, data, e, ack, v, n, ha, hc⟩
  · rcases exec_cases c s with ⟨u, hu⟩ | ⟨hf, -⟩
    · rw [hu] at hr
      cases hr
    · rw [hf] at hr
      cases hr

/-! ### The step -/

theorem step_cons {s : State} {c : Instr} {rest : List Instr} (h : s.pending = c :: rest) :
    step s = exec c (s.withPending rest) := by
  simp [step, h]

theorem step_nil {s : State} (h : s.pending = []) : step s = .next (idle s) := by
  simp [step, h]

/-- Settles O1. -/
theorem stepRunsFrontCommand : Obligations.StepRunsFrontCommand := ⟨fun _ _ _ h => step_cons h, fun _ h => step_nil h⟩

/-- Every well-formed command names addresses of the memory only: the lemmas of PerInstr, put together. -/
theorem sendsOk (c : Instr) : SendsOk.Statement c := by
  cases c with
  | hostPassedWrite a d e k => exact SendsOk.hostPassedWrite a d e k
  | hostVetoedWrite a d e k => exact SendsOk.hostVetoedWrite a d e k
  | hostAddressProbe a k => exact SendsOk.hostAddressProbe a k
  | hostRandomRead a n k => exact SendsOk.hostRandomRead a n k
  | busError x => exact SendsOk.busError x
  | clockHoldLimit x => exact SendsOk.clockHoldLimit x
  | _ => exact SendsOk.none_named rfl

theorem exec_goes_on {c : Instr} (s : State) (h : c.wellFormed = true) : ∃ t, exec c s = .next t := by
  obtain ⟨u, hu⟩ := exec_complete (s := s) (.inr (sendsOk c h))
  exact ⟨refreshPins u, hu⟩

end Sys2Proof.Machine
end

section
/-!
PROOFS. What every command that is not the memory link's and no reset keeps (`Mild`): time does not run back, the queue of
commands stays, at most one coil is driven, no bounded collection overflows, and the memory port is left alone. One lemma for
each block's commands; the effects that reach other blocks are those of Laws/Calm.lean.
-/

namespace Sys2Proof.Machine

/-! ### Shapes that many commands have -/

/-- A reaction of the blocks, with the stages behind it. -/
theorem mild_settleCalm {s t : State} (h : Calm s t) : Mild s (settle t) := mild_settle h.mild

/-- A timer that runs out under a condition, with a reaction of the blocks and the stages behind it. -/
theorem mild_dueWhen {p : Prop} [Decidable p] (s : State) (timer : Option Nat) {f : State → State} (h : ∀ t, Calm t (f t)) :
    Mild s (if p then onExpiry timer s fun t => settle (f t) else s) := by
  split
  · exact mild_onExpiry _ fun t => mild_settleCalm (h t)
  · exact Mild.refl s

/-- If the command goes on, it keeps what `Mild` speaks of. -/
def MildAfter (s : State) (o : Host.Outcome State Fault Refusal) : Prop := ∀ t, o = .next t → Mild s t

theorem mildAfter_complete {s u : State} (h : Mild s u) : MildAfter s (complete u) := fun _ e =>
  complete_eq e ▸ mild_refreshPins h

theorem mildAfter_event {s : State} {f : State → State} (h : Mild s (f s)) : MildAfter s (complete (outOfReset s f)) :=
  mildAfter_complete (mild_outOfReset h)

/-! ### Inputs, clock and start-up -/

theorem mild_setPfw (s : State) (v : Bool) : Mild s { s with pfw := v } := ⟨⟨le_rfl, rfl, id, id⟩, rfl, id⟩

theorem mild_onClock (s : State) (f : Clock → Clock) : Mild s (s.onClock f) := ⟨⟨le_rfl, rfl, id, id⟩, rfl, id⟩

theorem mildAfter_resettingEnd (s : State) : MildAfter s (execResettingEnd s) := by
  refine mildAfter_event ?_
  split
  · exact mild_onExpiry _ fun t => mild_settle (mild_beginScanning (Mild.refl t))
  · exact Mild.refl s

theorem mildAfter_pfwAssert (s : State) : MildAfter s (execPfwAssert s) := by
  unfold execPfwAssert
  split
  · exact mildAfter_complete (Mild.refl s)
  · refine mildAfter_complete ((mild_setPfw s true).trans (mild_outOfReset ?_))
    split
    · exact (calm_takeCheckpoint (Calm.refl _)).mild
    · exact Mild.refl _

theorem mildAfter_pfwClear (s : State) : MildAfter s (execPfwClear s) := by
  unfold execPfwClear
  split
  · refine mildAfter_complete ((mild_setPfw s false).trans ?_)
    split
    · exact mild_onCoin (Mild.refl _) id id
    · exact Mild.refl _
  · exact mildAfter_complete (Mild.refl s)

theorem mildAfter_clockSecond (s : State) : MildAfter s (execClockSecond s) := by
  unfold execClockSecond
  split
  · exact mildAfter_complete (Mild.refl s)
  · refine mildAfter_complete ?_
    split
    · exact (mild_reach s _).trans (mild_onClock _ _)
    · exact Mild.refl s

/-! ### The coin path -/

theorem mild_strobeEntry (answer : StrobeAnswer) (s : State) : Mild s (strobeEntry answer s) := by
  have decided (st : TransitState) (cls : Option (Fin 8)) : Mild s (decideTransit st cls s) :=
    mild_onCoin (Mild.refl s) (by simp [changeFirst_length]) id
  unfold strobeEntry
  split
  · exact decided _ _
  · split
    · exact mild_onCoin ((decided _ _).trans ⟨⟨le_rfl, rfl, id, id⟩, rfl, id⟩) id id
    · exact decided _ _

/-- An entry removed from the transit table. -/
theorem mild_removeTransit (p : Transit → Bool) (number : Nat) (s : State) : Mild s (removeTransit p number s) :=
  mild_onCoin (Mild.refl s) (fun h => (removeFirst_length _ _).trans h) id

theorem mild_failReturn (number : Nat) (s : State) : Mild s (failReturn number s) := by
  have removed := mild_removeTransit isReturning number s
  unfold failReturn
  dsimp only
  split
  · exact mild_onCoin removed id id
  · exact (mild_onCoin removed id id).calm (calm_raiseFreezing _ _ (Calm.refl _))

theorem mild_endPassage (p : Passage) (s : State) : Mild s (endPassage p s) := by
  have ended : Mild s (s.onCoin fun c => { c with passage := none }) := mild_onCoin (Mild.refl s) id id
  have stray := mild_appendStray ended
  unfold endPassage
  dsimp only
  split
  · exact stray
  · split
    · exact stray
    · split
      · exact stray
      · have removed (x : Transit) := mild_onCoin ended
          (f := fun c => { c with transit := removeFirst (fun y => y.number == x.number && y.atSensor) c.transit })
          (fun h => (removeFirst_length _ _).trans h) id
        unfold completePassage
        dsimp only
        split
        · exact mild_appendStray (removed _)
        · split
          · exact mild_coinArrives _ (removed _) ‹_›
          · exact (removed _).calm (calm_stringDetail (Calm.refl _))

theorem mild_stringCoin (p : Passage) (s : State) : Mild s (stringCoin p s) := by
  unfold stringCoin
  refine (mild_onCoin ?_ id id).calm (calm_openIncident _ (Calm.refl _))
  split
  · exact Mild.refl s
  · exact mild_removeTransit _ _ s

theorem mild_endPurge (s : State) : Mild s (endPurge s) :=
  (mild_onCoin (mild_onStart (Mild.refl s)) id id).calm (calm_startSettling (Calm.refl _))

theorem mild_failRelease (k : Coil) (s : State) : Mild s (failRelease k s) := by
  unfold failRelease
  split <;> exact (mild_abandonRelease (Mild.refl s)).calm (calm_raiseFreezing _ _ (Calm.refl _))

theorem calm_confirmReturn {s t : State} (x : Escrow) (h : Calm s t) : Calm s (confirmReturn x t) := by
  have k := calm_confirmRelease h
  have refunded : Calm s ((refund x.value (confirmRelease t)).onCoin fun c =>
      { c with returnAll := c.returnAll.map (· + x.value) }) := calm_onCoin (calm_refund _ k) rfl le_rfl
  unfold confirmReturn
  dsimp only
  split
  · split
    · exact calm_finishReturnAll refunded
    · exact refunded
  · exact k

theorem mild_matchReturn (s : State) : Mild s (matchReturn s) := by
  unfold matchReturn
  split
  · exact mild_onCoin (Mild.refl s) (fun h => (removeFirst_length _ _).trans h) id
  · split
    · exact mild_settleCalm (calm_confirmReturn _ (Calm.refl s))
    · unfold unmatchedReturn
      split
      · exact (calm_addDetail _ (Calm.refl s)).mild
      · exact mild_onCoin (Mild.refl s) id id

theorem mildAfter_entry (s : State) : MildAfter s (execEntry s) := by
  refine mildAfter_event ?_
  split
  · exact Mild.refl s
  · split
    case isTrue room => exact mild_onCoin (Mild.refl s) (fun _ => by simp; omega) id
    case isFalse => exact mild_settleCalm (calm_openIncident _ (Calm.refl s))

theorem mildAfter_validatorStrobe (answer : StrobeAnswer) (s : State) : MildAfter s (execValidatorStrobe answer s) := by
  refine mildAfter_event ?_
  split
  · exact Mild.refl s
  · split
    · exact mild_strobeEntry answer s
    · exact (mild_onCoin (Mild.refl s) id id).calm (calm_addDetail _ (Calm.refl _))

theorem mildAfter_acceptEnd (s : State) : MildAfter s (execAcceptEnd s) :=
  mildAfter_event (mild_onExpiry _ fun _ => mild_onCoin ⟨⟨le_rfl, rfl, id, id⟩, rfl, id⟩ id id)

theorem mildAfter_transitDeadlineExpiry (number : Nat) (s : State) : MildAfter s (execTransitDeadlineExpiry number s) := by
  refine mildAfter_event ?_
  split
  · exact Mild.refl s
  · exact mild_onExpiry _ fun t => mild_settle
      ((mild_removeTransit _ number t).calm (calm_openIncident _ (calm_raiseReason _ (Calm.refl _))))

theorem mildAfter_failedTransitReturn (number : Nat) (s : State) : MildAfter s (execFailedTransitReturn number s) := by
  refine mildAfter_event ?_
  split
  · exact Mild.refl s
  · exact mild_onExpiry _ fun t => mild_settle (mild_failReturn number t)

theorem mildAfter_escinActive (s : State) : MildAfter s (execEscinActive s) := by
  refine mildAfter_event ?_
  split
  · exact mild_onCoin (Mild.refl s) (by simp [changeFirst_length]) id
  · exact Mild.refl s

theorem mildAfter_escinInactive (s : State) : MildAfter s (execEscinInactive s) := by
  refine mildAfter_event ?_
  split
  · exact Mild.refl s
  · exact mild_settle (mild_endPassage _ s)

theorem mildAfter_stringingTimeout (s : State) : MildAfter s (execStringingTimeout s) := by
  refine mildAfter_event ?_
  split
  · exact Mild.refl s
  · split
    · exact Mild.refl s
    · exact mild_settle ((mild_reach s _).trans (mild_stringCoin _ _))

theorem mildAfter_releaseStart (s : State) : MildAfter s (execReleaseStart s) := by
  refine mildAfter_event ?_
  split
  · exact Mild.refl s
  · exact mild_driveCoil _ (mild_onCoin (Mild.refl s) id id)

theorem mildAfter_flapPulseEnd (s : State) : MildAfter s (execFlapPulseEnd s) :=
  mildAfter_event (mild_onExpiry _ fun t => mild_driveCoil _ (mild_onCoin (Mild.refl t) id id))

theorem mildAfter_deadTimeEnd (s : State) : MildAfter s (execDeadTimeEnd s) :=
  mildAfter_event (mild_onExpiry _ fun t => mild_onCoin (Mild.refl t) id id)

theorem mildAfter_confirmationWindowExpiry (s : State) : MildAfter s (execConfirmationWindowExpiry s) := by
  refine mildAfter_event ?_
  split
  · exact Mild.refl s
  · dsimp only
    split
    · exact mild_settle ((mild_reach s _).trans (mild_failRelease _ _))
    · exact mild_retryRelease _ (mild_reach s _)

theorem mildAfter_vaultin (s : State) : MildAfter s (execVaultin s) := by
  refine mildAfter_event ?_
  split
  · exact Mild.refl s
  · split
    · exact mild_settleCalm (calm_confirmCoin _ _ (calm_confirmRelease (Calm.refl s)))
    · exact mild_onCoin (Mild.refl s) id id

theorem mildAfter_returnEvent (s : State) : MildAfter s (execReturnEvent s) := by
  refine mildAfter_event ?_
  split
  · exact Mild.refl s
  · split
    · exact mild_onCoin (Mild.refl s) id id
    · exact mild_matchReturn s

theorem mildAfter_purgePulseStart (s : State) : MildAfter s (execPurgePulseStart s) := by
  refine mildAfter_event ?_
  split
  · exact mild_onExpiry _ fun t => mild_startPurgePulse (Mild.refl t)
  · exact Mild.refl s

theorem mildAfter_purgePulseEnd (s : State) : MildAfter s (execPurgePulseEnd s) :=
  mildAfter_event (mild_onExpiry _ fun t => mild_driveCoil _ (mild_onCoin (Mild.refl t) id id))

theorem mildAfter_purgeEnd (s : State) : MildAfter s (execPurgeEnd s) :=
  mildAfter_event (mild_onExpiry _ mild_endPurge)

/-! ### Rating, keys and the call -/

theorem mildAfter_chargingStep (s : State) : MildAfter s (execChargingStep s) := by
  refine mildAfter_event ?_
  split
  · split
    · exact (mild_reach s _).calm (calm_chargeStep _ (calm_onRate (Calm.refl _)))
    · exact Mild.refl s
  · exact Mild.refl s

theorem mildAfter_meterPulse (s : State) : MildAfter s (execMeterPulse s) := by
  refine mildAfter_event ?_
  split
  · exact Mild.refl s
  · split
    · unfold meterPulse
      split
      · exact (calm_takeAnswer _ (Calm.refl s)).mild
      · split
        · exact (calm_chargePulse _ (Calm.refl s)).mild
        · exact Mild.refl s
    · exact Mild.refl s

theorem mildAfter_keyEvent (key : Key) (s : State) : MildAfter s (execKeyEvent key s) := by
  refine mildAfter_event ⟨⟨le_rfl, rfl, id, fun ⟨ht, he, hk, hb, rest⟩ => ⟨ht, he, ?_, ?_, rest⟩⟩, rfl, id⟩
  · rw [State.onNum_num]
    split
    case isTrue room => simp [keyQueueSize] at room ⊢; omega
    case isFalse => exact hk
  · rw [State.onNum_num]
    split <;> exact hb

theorem mildAfter_keyTake (s : State) : MildAfter s (execKeyTake s) := by
  refine mildAfter_event ?_
  split
  · exact Mild.refl s
  case h_2 k rest hk =>
    split
    · exact Mild.refl s
    · exact mild_settle (mild_handleKey k (calm_onNum (Calm.refl s) (by simp [hk]) le_rfl).mild)

theorem calm_takeOffHook {s t : State} (h : Calm s t) : Calm s (takeOffHook t) := by
  unfold takeOffHook
  split
  · split
    · exact calm_onCall h
    · exact calm_lineGrant (calm_beginSeizing h)
  · exact h

theorem calm_takeOnHook {s t : State} (h : Calm s t) : Calm s (takeOnHook t) := by
  unfold takeOnHook
  split
  · split
    · exact calm_onCall h
    · exact h
    · exact calm_enterIdle h
    · exact calm_enterClearing _ h
  · exact h

theorem calm_loseHandset {s t : State} (h : Calm s t) : Calm s (loseHandset t) := by
  unfold loseHandset
  split
  · split
    · exact calm_enterParked h
    · exact h
  · exact calm_clearCall _ h

theorem mildAfter_offHook (s : State) : MildAfter s (execOffHook s) := by
  refine mildAfter_event ?_
  split
  · exact Mild.refl s
  · exact mild_settleCalm (calm_takeOffHook (calm_onCall (Calm.refl s)))

theorem mildAfter_onHook (s : State) : MildAfter s (execOnHook s) := by
  refine mildAfter_event ?_
  split
  · exact Mild.refl s
  · exact mild_settleCalm (calm_takeOnHook (calm_endCondition _ (calm_onCall (Calm.refl s))))

theorem mildAfter_handsetLoss (s : State) : MildAfter s (execHandsetLoss s) := by
  refine mildAfter_event ?_
  split
  · exact mild_settleCalm (calm_loseHandset (calm_openIncident _ (Calm.refl s)))
  · exact Mild.refl s

theorem mildAfter_assumedAnswerTimeout (s : State) : MildAfter s (execAssumedAnswerTimeout s) := by
  refine mildAfter_event ?_
  split
  · exact mild_onExpiry _ fun t => (calm_takeAnswer _ (Calm.refl t)).mild
  · exact Mild.refl s

theorem mildAfter_reversalPresent (s : State) : MildAfter s (execReversalPresent s) := by
  have noted : Calm s (s.onLine fun l => { l with reversal := true }) := calm_onLine (Calm.refl s) (le_max_right _ _)
  refine mildAfter_event ?_
  split
  · dsimp only
    split
    · exact (calm_takeAnswer _ noted).mild
    · exact noted.mild
  · exact Mild.refl s

theorem mildAfter_clearBack (s : State) : MildAfter s (execClearBack s) := by
  have noted : Calm s (s.onLine fun l => { l with reversal := false }) := calm_onLine (Calm.refl s) (le_max_right _ _)
  refine mildAfter_event ?_
  split
  · dsimp only
    split
    · exact (calm_enterAfterCall noted).mild
    · exact noted.mild
  · exact Mild.refl s

/-! ### The line -/

theorem mildAfter_dialToneQualified (s : State) : MildAfter s (execDialToneQualified s) := by
  refine mildAfter_event ?_
  split
  · exact mild_settleCalm (calm_lineReady (Calm.refl s))
  · exact Mild.refl s

theorem mildAfter_toneOnEnd (s : State) : MildAfter s (execToneOnEnd s) := by
  refine mildAfter_event ?_
  split
  · exact mild_onExpiry _ fun t => (calm_onLine (calm_onPins (Calm.refl t) rfl rfl rfl) (le_max_right _ _)).mild
  · exact Mild.refl s

theorem mildAfter_toneOffEnd (s : State) : MildAfter s (execToneOffEnd s) := by
  refine mildAfter_event ?_
  split
  · exact mild_onExpiry _ fun t => (calm_tellSent (calm_completeDigit (Calm.refl t))).mild
  · exact Mild.refl s

theorem mildAfter_decadicBreakEnd (s : State) : MildAfter s (execDecadicBreakEnd s) := by
  refine mildAfter_event ?_
  split
  · exact mild_onExpiry _ fun t => (calm_onLine (calm_setSeize _ (Calm.refl t)) (le_max_right _ _)).mild
  · exact Mild.refl s

theorem calm_endMake {s t : State} (h : Calm s t) : Calm s (endMake t) := by
  unfold endMake
  split
  · exact calm_startBreak (calm_onLine h (le_max_right _ _))
  · exact calm_tellSent (calm_completeDigit h)

theorem mildAfter_decadicMakeEnd (s : State) : MildAfter s (execDecadicMakeEnd s) := by
  refine mildAfter_event ?_
  split
  · exact mild_onExpiry _ fun t => (calm_endMake (Calm.refl t)).mild
  · exact Mild.refl s

theorem mildAfter_interDigitPauseEnd (s : State) : MildAfter s (execInterDigitPauseEnd s) := by
  refine mildAfter_event ?_
  split
  · exact mild_onExpiry _ fun t => (calm_startDigit (Calm.refl t)).mild
  · exact Mild.refl s

theorem mildAfter_quietTimeout (k : IncidentKind) (s : State) : MildAfter s (execQuietTimeout k s) := by
  refine mildAfter_event ?_
  split
  · exact Mild.refl s
  · split
    · exact Mild.refl s
    · exact mild_onExpiry _ fun t => mild_settleCalm (calm_putSlot _ _ (Calm.refl t))

/-! ### Vault and tamper sensing -/

theorem calm_openDoor {s t : State} (h : Calm s t) : Calm s (openDoor t) := by
  unfold openDoor
  split
  · exact calm_onVault h
  · exact calm_beginUnauthorised h

theorem calm_closeDoor {s t : State} (h : Calm s t) : Calm s (closeDoor t) := by
  refine calm_onVault (calm_endOvertime ?_)
  unfold endSession
  split
  · exact h
  · split
    · exact calm_completeCollection h
    · exact h
  · exact calm_endCondition _ h

theorem calm_boxInSession {s t : State} (present : Bool) (h : Calm s t) : Calm s (boxInSession present t) := by
  unfold boxInSession
  split
  · exact h
  · exact calm_onVault h
  · split
    · exact h
    · exact calm_addDetail _ h

theorem mildAfter_doorOpen (s : State) : MildAfter s (execDoorOpen s) := by
  refine mildAfter_event ?_
  split
  · exact Mild.refl s
  · dsimp only
    split
    · exact mild_settleCalm (calm_openDoor (calm_onVault (Calm.refl s)))
    · exact (calm_onVault (Calm.refl s)).mild

theorem mildAfter_doorClose (s : State) : MildAfter s (execDoorClose s) := by
  refine mildAfter_event ?_
  split
  · dsimp only
    split
    · exact mild_settleCalm (calm_closeDoor (calm_onVault (Calm.refl s)))
    · exact (calm_onVault (Calm.refl s)).mild
  · exact Mild.refl s

theorem mildAfter_boxEvent (present : Bool) (s : State) : MildAfter s (execBoxEvent present s) := by
  refine mildAfter_event ?_
  split
  · exact Mild.refl s
  · exact (calm_boxInSession present (calm_onVault (Calm.refl s))).mild

theorem mild_takeScan (raw : List (BitVec 16)) (s : State) : Mild s (takeScan raw s) := by
  have scanned := (calm_scan raw (Calm.refl s)).mild
  unfold takeScan
  dsimp only
  split
  · exact mild_enterReady scanned
  · exact scanned

theorem mildAfter_tamperScan (raw : List (BitVec 16)) (s : State) : MildAfter s (execTamperScan raw s) :=
  mildAfter_event (mild_onExpiry _ fun t => mild_settle (mild_takeScan raw t))

theorem mildAfter_haltTimeout (channel : Fin 6) (s : State) : MildAfter s (execHaltTimeout channel s) := by
  refine mildAfter_event ?_
  split
  · exact Mild.refl s
  · exact mild_settle ((mild_reach s _).calm (calm_reseedChannel channel (Calm.refl _)))

theorem mildAfter_loiterTimeout (s : State) : MildAfter s (execLoiterTimeout s) := by
  refine mildAfter_event ?_
  split
  · exact mild_settle ((mild_reach s _).calm (calm_probeTrigger (Calm.refl _)))
  · exact Mild.refl s
  · exact Mild.refl s

/-! ### All of them -/

/-- The commands of the memory link and the two resets with the end of reset: what they keep is stated apart. -/
def linkOrReset : Instr → Bool
  | .powerOnReset | .rstReset | .endOfReset => true
  | .hostPassedWrite .. | .hostVetoedWrite .. | .hostAddressProbe .. | .hostRandomRead .. | .hostCurrentAddressRead ..
  | .busError .. | .clockHoldLimit .. => true
  | .ownTransactionStart .. | .ownWriteStop | .ownWriteConfirmed | .ownReadComplete | .memoryPoll .. | .memoryFault
  | .ownAttemptFailure .. => true
  | _ => false

theorem mildAfter_exec {c : Instr} (hc : linkOrReset c = false) (s : State) : MildAfter s (exec c s) := by
  have due {p : Prop} [Decidable p] (timer : Option Nat) {f : State → State} (h : ∀ t, Calm t (f t)) :
      MildAfter s (complete (outOfReset s fun s => if p then onExpiry timer s fun t => settle (f t) else s)) :=
    mildAfter_event (mild_dueWhen s timer h)
  have request (image : List Byte) : MildAfter s (complete (directRequest image s)) :=
    mildAfter_complete (mild_directRequest image (Mild.refl s))
  cases c with
  | powerOnReset | rstReset | endOfReset | hostPassedWrite | hostVetoedWrite | hostAddressProbe | hostRandomRead
  | hostCurrentAddressRead | busError | clockHoldLimit | ownTransactionStart | ownWriteStop | ownWriteConfirmed
  | ownReadComplete | memoryPoll | memoryFault | ownAttemptFailure => exact nomatch hc
  | resettingEnd => exact mildAfter_resettingEnd s
  | pfwAssert => exact mildAfter_pfwAssert s
  | pfwClear => exact mildAfter_pfwClear s
  | clockSecond => exact mildAfter_clockSecond s
  | entry => exact mildAfter_entry s
  | validatorStrobe answer => exact mildAfter_validatorStrobe answer s
  | acceptEnd => exact mildAfter_acceptEnd s
  | transitDeadlineExpiry number => exact mildAfter_transitDeadlineExpiry number s
  | failedTransitReturn number => exact mildAfter_failedTransitReturn number s
  | escinActive => exact mildAfter_escinActive s
  | escinInactive => exact mildAfter_escinInactive s
  | stringingTimeout => exact mildAfter_stringingTimeout s
  | releaseStart => exact mildAfter_releaseStart s
  | flapPulseEnd => exact mildAfter_flapPulseEnd s
  | deadTimeEnd => exact mildAfter_deadTimeEnd s
  | confirmationWindowExpiry => exact mildAfter_confirmationWindowExpiry s
  | vaultin => exact mildAfter_vaultin s
  | returnEvent => exact mildAfter_returnEvent s
  | purgePulseStart => exact mildAfter_purgePulseStart s
  | purgePulseEnd => exact mildAfter_purgePulseEnd s
  | purgeEnd => exact mildAfter_purgeEnd s
  | chargingStep => exact mildAfter_chargingStep s
  | graceExpiry => exact due s.rate.graceEnd fun t => calm_enterClearing _ (Calm.refl t)
  | meterPulse => exact mildAfter_meterPulse s
  | pipPatternTimer => exact mildAfter_event (mild_onExpiry _ fun t => (calm_onPipGen (Calm.refl t)).mild)
  | activateTariff | ackCalls | openService | closeService | clearBlock | reseedTamper | ackIncidents | testReport | setClock
  | reloadConfig => exact request _
  | keyEvent key => exact mildAfter_keyEvent key s
  | keyTake => exact mildAfter_keyTake s
  | silenceTimeout => exact due s.num.silenceEnd fun t => calm_silenceOver (Calm.refl t)
  | offHook => exact mildAfter_offHook s
  | onHook => exact mildAfter_onHook s
  | handsetLoss => exact mildAfter_handsetLoss s
  | grantTimeout => exact due s.call.grantEnd fun t => calm_enterClearing _ (Calm.refl t)
  | offhookHoldTimeout =>
    exact due s.call.holdEnd fun t => calm_askPreempt (calm_openIncident _ (calm_onCall (Calm.refl t)))
  | depositTimeout => exact due s.call.depositEnd fun t => calm_enterClearing _ (calm_countRefusal _ (Calm.refl t))
  | answerTimeout => exact due s.call.answerEnd fun t => calm_enterClearing _ (Calm.refl t)
  | assumedAnswerTimeout => exact mildAfter_assumedAnswerTimeout s
  | reversalPresent => exact mildAfter_reversalPresent s
  | clearBack => exact mildAfter_clearBack s
  | followOnWindowExpiry => exact due s.call.followEnd fun t => calm_enterClearing _ (Calm.refl t)
  | guardEnd => exact due s.line.guardEnd fun t => calm_endGuard (Calm.refl t)
  | dialToneQualified => exact mildAfter_dialToneQualified s
  | dialToneTimeout => exact due s.line.dialToneEnd fun t => calm_seizureFailed (Calm.refl t)
  | loopLoss => exact mildAfter_event (mild_settleCalm (calm_loopLost (Calm.refl s)))
  | toneOnEnd => exact mildAfter_toneOnEnd s
  | toneOffEnd => exact mildAfter_toneOffEnd s
  | decadicBreakEnd => exact mildAfter_decadicBreakEnd s
  | decadicMakeEnd => exact mildAfter_decadicMakeEnd s
  | interDigitPauseEnd => exact mildAfter_interDigitPauseEnd s
  | acktoneDetection => exact mildAfter_event (mild_settleCalm (calm_acktone (Calm.refl s)))
  | doorOpen => exact mildAfter_doorOpen s
  | doorClose => exact mildAfter_doorClose s
  | boxEvent present => exact mildAfter_boxEvent present s
  | serviceWindowExpiry =>
    exact mildAfter_event (mild_onExpiry _ fun t => mild_settleCalm (calm_closeWindow (Calm.refl t)))
  | tamperScan raw => exact mildAfter_tamperScan raw s
  | haltTimeout channel => exact mildAfter_haltTimeout channel s
  | contextSettlingExpiry =>
    exact mildAfter_event (mild_onExpiry _ fun t => mild_settleCalm (calm_settleContext (Calm.refl t)))
  | loiterTimeout => exact mildAfter_loiterTimeout s
  | contRestored => exact mildAfter_event (calm_endCondition _ (Calm.refl s)).mild
  | quietTimeout kind => exact mildAfter_quietTimeout kind s
  | retryTimeout => exact due s.dial.retryEnd fun t => calm_attemptBegin (Calm.refl t)
  | readyToneTimeout => exact due s.dial.handEnd fun t => calm_attemptFail _ (Calm.refl t)
  | kissoffTimeout => exact due s.dial.handEnd fun t => calm_attemptFail _ (Calm.refl t)

end Sys2Proof.Machine
end

section
/-!
PROOFS. The invariants of every step: the resets and the memory link's commands, and with the commands of the other blocks
every command. Time does not run back, the queue of commands stays, one coil at most is driven, no bounded collection
overflows; and the memory keeps its canonical form.
-/

namespace Sys2Proof.Machine

/-! ### Shapes -/

/-- If the command goes on, it keeps what `Keeps` speaks of, and the memory sound. -/
def SoundAfter (s : State) (o : Host.Outcome State Fault Refusal) : Prop :=
  ∀ t, o = .next t → Keeps s t ∧ (memoryOk s → memoryOk t)

theorem soundAfter_complete {s u : State} (h : Keeps s u) (k : memoryOk s → memoryOk u) : SoundAfter s (complete u) :=
  fun _ e => complete_eq e ▸ ⟨keeps_mild h (mild_refreshPins (Mild.refl u)), (mild_refreshPins (Mild.refl u)).memoryOk ∘ k⟩

theorem MildAfter.sound {s : State} {o : Host.Outcome State Fault Refusal} (h : MildAfter s o) : SoundAfter s o :=
  fun t e => ⟨(h t e).toKeeps, (h t e).memoryOk⟩

theorem soundAfter_event {s : State} {f : State → State} (h : Keeps s (f s)) (k : memoryOk s → memoryOk (f s)) :
    SoundAfter s (complete (outOfReset s f)) := by
  refine soundAfter_complete (keeps_outOfReset h) ?_
  rcases outOfReset_cases s f with e | e <;> rw [e]
  · exact id
  · exact k

/-- A command that names `a` goes on in RESETTING or with `a` in the memory. -/
theorem soundAfter_addressed {a : Addr} {s : State} {f : State → State} (h : Keeps s (f s))
    (k : s.start.phase = .resetting ∨ a.toNat < memorySize → memoryOk s → memoryOk (f s)) :
    SoundAfter s (addressed a s f) := by
  unfold addressed
  split
  case isTrue => exact fun t e => nomatch e
  case isFalse reaches =>
    refine soundAfter_complete h (k ?_)
    unfold inMemory at reaches
    by_cases hp : s.start.phase = .resetting
    · exact .inl hp
    · exact .inr (by simpa [hp] using reaches)

/-! ### Resets -/

theorem keeps_tornByReset (s : State) : Keeps s (tornByReset s) := by
  unfold tornByReset
  split
  · exact keeps_tearWrite _ _ (Keeps.refl s)
  · exact Keeps.refl s

theorem memoryOk_tornByReset {s : State} (h : memoryOk s) : memoryOk (tornByReset s) := by
  unfold tornByReset
  split
  · exact memoryOk_tearWrite _ h (memoryOk_writing h ‹_›)
  · exact h

theorem quotasKept_nil : quotasKept [] := fun _ => Nat.zero_le _

/-- A reset leaves no coil on and every bounded collection empty. -/
theorem keeps_resetBlocks (c : Clock) (pfw held : Bool) (s : State) : Keeps s (resetBlocks c pfw held s) where
  now := le_rfl
  pending := rfl
  coil := fun _ h => nomatch h.1
  within := fun _ => ⟨Nat.zero_le _, Nat.zero_le _, Nat.zero_le _, Nat.zero_le _, Nat.zero_le _, Nat.zero_le _, quotasKept_nil⟩

theorem memoryOk_resetBlocks (c : Clock) (pfw held : Bool) {s : State} (h : memoryOk s) :
    memoryOk (resetBlocks c pfw held s) := ⟨h.1, rfl, rfl⟩

theorem mild_endReset (s : State) : Mild s (endReset s) :=
  (mild_onStart (Mild.refl s)).calm (calm_onLine (Calm.refl _) (le_max_right _ _))

theorem soundAfter_powerOnReset (s : State) : SoundAfter s (execPowerOnReset s) := by
  have keeps := (keeps_tornByReset s).trans (keeps_resetBlocks Clock.zero false s.start.rstHeld _)
  have sound : memoryOk s → memoryOk (resetBlocks Clock.zero false s.start.rstHeld (tornByReset s)) := fun h =>
    memoryOk_resetBlocks _ _ _ (memoryOk_tornByReset h)
  unfold execPowerOnReset
  dsimp only
  split
  · exact soundAfter_complete keeps sound
  · exact soundAfter_complete (keeps_mild keeps (mild_endReset _)) ((mild_endReset _).memoryOk ∘ sound)

theorem soundAfter_rstReset (s : State) : SoundAfter s (execRstReset s) :=
  soundAfter_complete ((keeps_tornByReset s).trans (keeps_resetBlocks _ _ _ _)) fun h =>
    memoryOk_resetBlocks _ _ _ (memoryOk_tornByReset h)

theorem mildAfter_endOfReset (s : State) : MildAfter s (execEndOfReset s) := by
  refine mildAfter_complete ?_
  split
  · exact mild_endReset s
  · exact Mild.refl s

/-! ### Host transactions -/

/-- In RESETTING the controller port answers no address, and nothing is stored or held. -/
theorem hostArrives_resetting {s : State} (h : s.start.phase = .resetting) (x : HostTxn) (ack : Bool) :
    hostArrives x ack s = s.onLink fun l => { l with hostAck := false, hostData := [] } := if_pos h

theorem memoryOk_arrives {s : State} {x : HostTxn} (ack : Bool)
    (hx : s.start.phase = .resetting ∨ x.inMemory = true) (h : memoryOk s) : memoryOk (settle (hostArrives x ack s)) := by
  refine memoryOk_settle ?_
  rcases hx with hp | hx
  · rw [hostArrives_resetting hp]
    exact memoryOk_onLink h rfl (.inl rfl)
  · exact memoryOk_hostArrives ack h hx

theorem keeps_arrives (s : State) (x : HostTxn) (ack : Bool) : Keeps s (settle (hostArrives x ack s)) :=
  keeps_settle (keeps_hostArrives x ack (Keeps.refl s))

/-- A host transaction that names `a`. -/
theorem soundAfter_arrives {s : State} {a : Addr} {x : HostTxn} (ack : Bool)
    (hx : a.toNat < memorySize → x.inMemory = true) :
    SoundAfter s (addressed a s fun s => settle (hostArrives x ack s)) :=
  soundAfter_addressed (keeps_arrives s x ack) fun ha => memoryOk_arrives ack (ha.imp id hx)

/-! ### Bus errors and the limit of holds -/

theorem memoryOk_brokenPassed {s : State} {a : Nat} (data : List Byte) (h : memoryOk s) (ha : a < memorySize) :
    memoryOk (brokenPassed a data s) := memoryOk_store data h ha rfl rfl

/-- The word address of a place, if it names one, lies in the memory. -/
def BrokenAt.inMemory : BrokenAt → Prop
  | .inWrite a _ => a.toNat < memorySize
  | _ => True

theorem memoryOk_brokenRead {s : State} (a n : Nat) (h : memoryOk s) : memoryOk (brokenRead a n s) :=
  memoryOk_onLink (memoryOk_onLink h rfl (.inl rfl)) rfl (.inl rfl)

theorem memoryOk_breakOff {s : State} {x : BrokenAt} (h : memoryOk s) (hx : BrokenAt.inMemory x) :
    memoryOk (breakOff x s) := by
  have confirmed := memoryOk_confirmIfAwaiting h
  unfold breakOff
  split
  · split
    · exact memoryOk_onLink confirmed rfl (.inl rfl)
    · exact memoryOk_onLink h rfl (.inl rfl)
  · dsimp only
    split
    · exact memoryOk_brokenPassed _ confirmed hx
    · exact memoryOk_onLink confirmed rfl (.inl rfl)
  · exact memoryOk_brokenRead _ _ confirmed
  · exact memoryOk_brokenRead _ _ confirmed

theorem memoryOk_busBroken {s : State} {x : BrokenAt} (h : memoryOk s) (hx : BrokenAt.inMemory x) :
    memoryOk (busBroken x s) := by
  unfold busBroken
  refine memoryOk_onLink ?_ rfl (.inr rfl)
  split
  · exact memoryOk_onLink h rfl (.inl rfl)
  · exact memoryOk_breakOff h hx

/-- The word address of a place, if it names one, lies in the memory. -/
def HoldPoint.inMemory : HoldPoint → Prop
  | .inWrite a _ => a.toNat < memorySize
  | _ => True

theorem memoryOk_endByLimit {s : State} (ack : Bool) (data : List Byte) (h : memoryOk s) :
    memoryOk (endByLimit ack data s) := memoryOk_onLink h rfl (.inl rfl)

theorem memoryOk_limitInside {s : State} {x : HoldPoint} (h : memoryOk s) (hx : HoldPoint.inMemory x) :
    memoryOk (limitInside x s) := by
  unfold limitInside
  split
  · exact h
  · exact memoryOk_endByLimit _ _ (memoryOk_onLink h rfl (.inl rfl))
  · unfold cutWrite
    split
    · exact memoryOk_endByLimit _ _ (memoryOk_onLink (memoryOk_brokenPassed _ h hx) rfl (.inl rfl))
    · exact h
  · exact memoryOk_endByLimit _ _ (memoryOk_onLink h rfl (.inl rfl))
  · exact memoryOk_endByLimit _ _ (memoryOk_onLink h rfl (.inl rfl))

theorem memoryOk_releaseHost {s : State} (h : memoryOk s) : memoryOk (releaseHost s) := by
  unfold releaseHost
  split
  · exact memoryOk_nakHost _ h
  · exact h

theorem memoryOk_holdLimit {s : State} {x : HoldPoint} (h : memoryOk s) (hx : HoldPoint.inMemory x) :
    memoryOk (holdLimit x s) := by
  unfold holdLimit
  split
  · split
    · exact memoryOk_releaseHost ((mild_reach s _).memoryOk h)
    · exact h
  · split
    · exact h
    · exact memoryOk_limitInside (memoryOk_confirmIfAwaiting h) hx

theorem keeps_whileRelaying {s : State} {f : State → State} (h : Keeps s (f s)) : Keeps s (whileRelaying s f) := by
  unfold whileRelaying
  split
  · exact Keeps.refl s
  · exact h

/-- In RESETTING nothing is relayed; else the place lies in the memory. -/
theorem memoryOk_whileRelaying {s : State} {f : State → State} {p : Prop} (ha : s.start.phase = .resetting ∨ p)
    (h : memoryOk s) (k : p → memoryOk (f s)) : memoryOk (whileRelaying s f) := by
  unfold whileRelaying
  split
  case isTrue => exact h
  case isFalse hp => exact k (ha.resolve_left hp)

theorem keeps_broken (s : State) (x : BrokenAt) : Keeps s (whileRelaying s fun s => settle (busBroken x s)) :=
  keeps_whileRelaying (keeps_settle (keeps_busBroken x (Keeps.refl s)))

theorem memoryOk_broken {s : State} {x : BrokenAt} (hx : s.start.phase = .resetting ∨ BrokenAt.inMemory x)
    (h : memoryOk s) : memoryOk (whileRelaying s fun s => settle (busBroken x s)) :=
  memoryOk_whileRelaying hx h fun hx => memoryOk_settle (memoryOk_busBroken h hx)

theorem soundAfter_busError (x : BrokenAt) (s : State) : SoundAfter s (execBusError x s) := by
  rcases x with acked | ⟨a, data⟩ | ⟨_ | a, n⟩ <;> simp only [execBusError]
  case inAddress | inRead.none => exact soundAfter_complete (keeps_broken s _) (memoryOk_broken (.inr trivial))
  case inWrite => exact soundAfter_addressed (keeps_broken s _) fun ha => memoryOk_broken (x := .inWrite a data) ha
  case inRead.some => exact soundAfter_addressed (keeps_broken s _) fun _ => memoryOk_broken (.inr trivial)

theorem keeps_limited (s : State) (x : HoldPoint) : Keeps s (whileRelaying s fun s => settle (holdLimit x s)) :=
  keeps_whileRelaying (keeps_settle (keeps_holdLimit x (Keeps.refl s)))

theorem memoryOk_limited {s : State} {x : HoldPoint} (hx : s.start.phase = .resetting ∨ HoldPoint.inMemory x)
    (h : memoryOk s) : memoryOk (whileRelaying s fun s => settle (holdLimit x s)) :=
  memoryOk_whileRelaying hx h fun hx => memoryOk_settle (memoryOk_holdLimit h hx)

theorem soundAfter_clockHoldLimit (x : HoldPoint) (s : State) : SoundAfter s (execClockHoldLimit x s) := by
  rcases x with _ | _ | ⟨a, data⟩ | ⟨_ | a, n⟩ <;> simp only [execClockHoldLimit]
  case atAcknowledge =>
    exact soundAfter_complete (keeps_whileRelaying (keeps_holdLimit _ (Keeps.refl s))) fun h =>
      memoryOk_whileRelaying (.inr trivial) h fun hx => memoryOk_holdLimit h hx
  case inAddress | inRead.none => exact soundAfter_complete (keeps_limited s _) (memoryOk_limited (.inr trivial))
  case inWrite => exact soundAfter_addressed (keeps_limited s _) fun ha => memoryOk_limited (x := .inWrite a data) ha
  case inRead.some => exact soundAfter_addressed (keeps_limited s _) fun _ => memoryOk_limited (.inr trivial)

/-! ### Own transactions -/

theorem soundAfter_ownWriteConfirmed (s : State) : SoundAfter s (execOwnWriteConfirmed s) := by
  have confirmed := mild_confirmWrite (Mild.refl s)
  refine soundAfter_event ?_ ?_ <;> split
  · exact keeps_resume _ confirmed.toKeeps
  · exact Keeps.refl s
  · exact fun h => memoryOk_resume _ (confirmed.memoryOk h)
  · exact id

theorem soundAfter_ownReadComplete (s : State) : SoundAfter s (execOwnReadComplete s) := by
  refine soundAfter_event ?_ ?_ <;> split
  · exact keeps_resume _ (keeps_readDone _ (Keeps.refl s))
  · exact Keeps.refl s
  · exact fun h => memoryOk_resume _ (memoryOk_readDone _ h)
  · exact id

theorem soundAfter_memoryFault (s : State) : SoundAfter s (execMemoryFault s) := by
  have fault (t : State) : Keeps t (settle (takeMemoryFault t)) := keeps_settle (keeps_takeMemoryFault (Keeps.refl t))
  refine soundAfter_event ?_ ?_ <;>
    rcases onExpiry_cases (faultTime s) s fun t => settle (takeMemoryFault t) with e | ⟨x, -, e⟩ <;> rw [e]
  · exact Keeps.refl s
  · exact (mild_reach s x).toKeeps.trans (fault _)
  · exact id
  · exact fun h => memoryOk_settle (memoryOk_takeMemoryFault ((mild_reach s x).memoryOk h))

/-! ### Every command -/

theorem soundAfter_exec (c : Instr) (s : State) : SoundAfter s (exec c s) := by
  cases hc : linkOrReset c with
  | false => exact (mildAfter_exec hc s).sound
  | true =>
    cases c with
    | powerOnReset => exact soundAfter_powerOnReset s
    | rstReset => exact soundAfter_rstReset s
    | endOfReset => exact (mildAfter_endOfReset s).sound
    | hostPassedWrite a data e ack => exact soundAfter_arrives ack decide_eq_true
    | hostVetoedWrite a data e ack => exact soundAfter_arrives ack decide_eq_true
    | hostAddressProbe a k =>
      cases a with
      | none => exact soundAfter_complete (keeps_arrives s _ _) (memoryOk_arrives _ (.inr rfl))
      | some a => exact soundAfter_arrives k.ack decide_eq_true
    | hostRandomRead a n k => exact soundAfter_arrives k.ack decide_eq_true
    | hostCurrentAddressRead n k => exact soundAfter_complete (keeps_arrives s _ _) (memoryOk_arrives _ (.inr rfl))
    | busError x => exact soundAfter_busError x s
    | clockHoldLimit x => exact soundAfter_clockHoldLimit x s
    | ownTransactionStart ack => exact (mildAfter_event (mild_ownStart ack (Mild.refl s))).sound
    | ownWriteStop => exact soundAfter_event (keeps_ownWriteStop (Keeps.refl s)) memoryOk_ownWriteStop
    | ownWriteConfirmed => exact soundAfter_ownWriteConfirmed s
    | ownReadComplete => exact soundAfter_ownReadComplete s
    | memoryPoll ack => exact soundAfter_event (keeps_memoryPoll ack (Keeps.refl s)) (memoryOk_memoryPoll ack)
    | memoryFault => exact soundAfter_memoryFault s
    | ownAttemptFailure x =>
      exact soundAfter_event (keeps_ownFailure _ _ (Keeps.refl s)) (memoryOk_ownFailure _ _)
    | _ => exact nomatch hc

/-- What every step keeps but for the queue of commands, of which it takes the front. -/
theorem step_sound {s t : State} (h : step s = .next t) :
    s.now ≤ t.now ∧ (oneCoil s → oneCoil t) ∧ (withinCapacity s → withinCapacity t) ∧ (memoryOk s → memoryOk t) := by
  rcases hp : s.pending with _ | ⟨c, rest⟩
  · rw [step_nil hp] at h
    cases h
    exact ⟨Nat.le_succ _, id, id, id⟩
  · rw [step_cons hp] at h
    obtain ⟨keeps, sound⟩ := soundAfter_exec c _ t h
    exact ⟨keeps.now, keeps.coil, keeps.within, sound⟩

/-! ### The statements -/

/-- Settles O4. -/
theorem stepKeepsMemoryForm : Obligations.StepKeepsMemoryForm := fun _ _ hs h => (step_sound h).2.2.2 hs

/-- Settles O5. -/
theorem stepNeverDrivesBothCoils : Obligations.StepNeverDrivesBothCoils := fun _ _ hs h => (step_sound h).2.1 hs

/-- The quotas, producer by producer (R169). -/
theorem quotasKept_iff (q : List Item) : quotasKept q ↔
    itemsOf .call q ≤ 2 ∧ itemsOf .vault q ≤ 2 ∧ itemsOf .request q ≤ 1 ∧ itemsOf .rating q ≤ 1 ∧ itemsOf .incident q ≤ 6 := by
  constructor
  · exact fun h => ⟨h .call, h .vault, h .request, h .rating, h .incident⟩
  · rintro ⟨call, vault, request, rating, incident⟩ p
    cases p
    exacts [call, vault, request, rating, incident]

/-- Settles O6: the step keeps the capacities, whose quotas are spelled out. -/
theorem stepKeepsCapacities : Obligations.StepKeepsCapacities :=
  ⟨fun _ _ hs h => (step_sound h).2.2.1 hs, fun s => by unfold withinCapacity; rw [quotasKept_iff]; rfl⟩

/-- Settles O2. -/
theorem commandsGoOn : Obligations.CommandsGoOn :=
  ⟨⟨fun _ s h => exec_goes_on s h, fun c s t h => (soundAfter_exec c s t h).1.pending⟩, fun _ _ h => (step_sound h).1⟩

/-- Settles O7. -/
theorem resetMeetsInvariants : Obligations.ResetMeetsInvariants :=
  ⟨⟨memWf_reset, rfl, rfl⟩, by unfold oneCoil; decide,
    Nat.zero_le _, Nat.zero_le _, Nat.zero_le _, Nat.zero_le _, Nat.zero_le _, Nat.zero_le _, quotasKept_nil⟩

end Sys2Proof.Machine
end

section
/-!
PROOFS. The memory's bytes: what a write stores (R159), that no host transaction stores in a page vetoed as it is classified
(R160), and that only writes change the memory.
-/

namespace Sys2Proof.Machine

/-! ### A write of several bytes -/

/-- A write leaves every byte at whose address it stores nothing. -/
theorem memRead_storePage_of_ne : ∀ (data : List Byte) {m : List Host.Cell} {a : Nat} (i b : Nat), memWf m = true →
    a < memorySize → (∀ k < data.length, b ≠ pageWrap a (i + k)) → memRead (storePage m a data i) b = memRead m b := by
  intro data
  induction data with
  | nil => intros; rfl
  | cons v rest ih =>
    intro m a i b h ha hb
    have first : b ≠ pageWrap a i := hb 0 (Nat.zero_lt_succ _)
    rw [storePage, ih (i + 1) b (memWf_memWrite v h (pageWrap_lt i ha)) ha, memRead_memWrite h, if_neg first]
    intro k hk
    have := hb (k + 1) (Nat.succ_lt_succ hk)
    rwa [Nat.add_assoc, Nat.add_comm 1 k]

/-- Of the bytes of a write the last 64 stand where they were stored; the earlier ones have been overwritten. -/
theorem memRead_storePage_stored : ∀ (data : List Byte) {m : List Host.Cell} {a : Nat} (i j : Nat), memWf m = true →
    a < memorySize → j < data.length → data.length ≤ j + 64 →
    memRead (storePage m a data i) (pageWrap a (i + j)) = data.getD j 0 := by
  intro data
  induction data with
  | nil => intro m a i j _ _ hj; exact absurd hj (Nat.not_lt_zero j)
  | cons v rest ih =>
    intro m a i j h ha hj hlen
    have written := memWf_memWrite v h (pageWrap_lt i ha)
    rw [List.length_cons] at hj hlen
    cases j with
    | zero =>
      have later : ∀ k < rest.length, pageWrap a i ≠ pageWrap a (i + 1 + k) := by unfold pageWrap; omega
      rw [Nat.add_zero, storePage, memRead_storePage_of_ne rest (i + 1) _ written ha later, memRead_memWrite h, if_pos rfl]
      rfl
    | succ j =>
      have stored := ih (i + 1) j written ha (by omega) (by omega)
      rwa [Nat.add_assoc, Nat.add_comm 1 j] at stored

/-- Settles O52. -/
theorem storedBytesWrapInTheirPage : Obligations.StoredBytesWrapInTheirPage := by
  intro m a data h ha
  refine ⟨memWf_memStore data h ha, fun b hb => ?_, fun i hi hlen => ?_⟩
  · exact memRead_storePage_of_ne data 0 b h ha fun k hk => by rw [Nat.zero_add]; exact hb k hk
  · have stored := memRead_storePage_stored data 0 i h ha hi hlen
    rwa [Nat.zero_add] at stored

/-! ### Pages vetoed as the transaction is classified -/

section
variable {P : Nat → Prop} {s : State}

theorem PagesKept.settled {t : State} (h : PagesKept P s t) : PagesKept P s (settle t) :=
  h.trans (mild_settle (Mild.refl t)).pagesKept

/-- An own write that awaited its confirmation is confirmed first, and that stores nothing. -/
theorem PagesKept.confirmed {t : State} (h : PagesKept P (confirmIfAwaiting s) t) : PagesKept P s t :=
  (mild_confirmIfAwaiting (Mild.refl s)).pagesKept.trans h

theorem pagesKept_hostArrives (hP : ∀ p, P p → guardRole (confirmIfAwaiting s) p = .vetoed) {x : HostTxn} (ack : Bool)
    (h : memoryOk s) (hx : s.start.phase = .resetting ∨ x.inMemory = true) : PagesKept P s (hostArrives x ack s) := by
  unfold hostArrives
  split
  case isTrue => exact pagesKept_of_mem rfl
  case isFalse hp =>
    split
    · exact PagesKept.refl s
    · split
      · exact pagesKept_of_mem rfl
      · split
        · exact (pagesKept_perform hP _ (memoryOk_confirmIfAwaiting h) (hx.resolve_left hp)).confirmed
        · split
          · exact pagesKept_of_mem rfl
          · exact pagesKept_of_mem (endTxn_mem _ _ _)

theorem pagesKept_breakOff (hP : ∀ p, P p → guardRole (confirmIfAwaiting s) p = .vetoed) {x : BrokenAt} (h : memoryOk s)
    (hx : BrokenAt.inMemory x) : PagesKept P s (breakOff x s) := by
  unfold breakOff
  split
  · split
    · exact (pagesKept_of_mem rfl).confirmed
    · exact pagesKept_of_mem rfl
  · dsimp only
    split
    · exact (pagesKept_store _ hP (memoryOk_confirmIfAwaiting h).1 hx ‹_› rfl).confirmed
    · exact (pagesKept_of_mem rfl).confirmed
  · exact (pagesKept_of_mem rfl).confirmed
  · exact (pagesKept_of_mem rfl).confirmed

theorem pagesKept_busBroken (hP : ∀ p, P p → guardRole (confirmIfAwaiting s) p = .vetoed) {x : BrokenAt} (h : memoryOk s)
    (hx : BrokenAt.inMemory x) : PagesKept P s (busBroken x s) := by
  unfold busBroken
  refine PagesKept.trans ?_ (pagesKept_of_mem rfl)
  split
  · exact pagesKept_of_mem rfl
  · exact pagesKept_breakOff hP h hx

theorem pagesKept_limitInside (hP : ∀ p, P p → guardRole s p = .vetoed) {x : HoldPoint} (h : memoryOk s)
    (hx : HoldPoint.inMemory x) : PagesKept P s (limitInside x s) := by
  unfold limitInside
  split
  · exact PagesKept.refl s
  · exact pagesKept_of_mem rfl
  · unfold cutWrite
    split
    · exact pagesKept_store _ hP h.1 hx ‹_› rfl
    · exact PagesKept.refl s
  · exact pagesKept_of_mem rfl
  · exact pagesKept_of_mem rfl

theorem releaseHost_mem (s : State) : (releaseHost s).link.mem = s.link.mem := by
  unfold releaseHost
  split <;> rfl

theorem pagesKept_holdLimit (hP : ∀ p, P p → guardRole (confirmIfAwaiting s) p = .vetoed) {x : HoldPoint} (h : memoryOk s)
    (hx : HoldPoint.inMemory x) : PagesKept P s (holdLimit x s) := by
  unfold holdLimit
  split
  · split
    · exact pagesKept_of_mem (releaseHost_mem _)
    · exact PagesKept.refl s
  · split
    · exact PagesKept.refl s
    · exact (pagesKept_limitInside hP (memoryOk_confirmIfAwaiting h) hx).confirmed

/-! ### The host's commands -/

/-- If the command goes on, it changes no byte of the pages. -/
def PagesKeptAfter (P : Nat → Prop) (s : State) (o : Host.Outcome State Fault Refusal) : Prop :=
  ∀ t, o = .next t → PagesKept P s t

theorem pagesKeptAfter_complete {u : State} (h : PagesKept P s u) : PagesKeptAfter P s (complete u) := fun _ e =>
  complete_eq e ▸ h.trans (mild_refreshPins (Mild.refl u)).pagesKept

theorem pagesKeptAfter_addressed {a : Addr} {f : State → State}
    (h : s.start.phase = .resetting ∨ a.toNat < memorySize → PagesKept P s (f s)) :
    PagesKeptAfter P s (addressed a s f) := by
  unfold addressed
  split
  case isTrue => exact fun t e => nomatch e
  case isFalse reaches =>
    refine pagesKeptAfter_complete (h ?_)
    unfold inMemory at reaches
    by_cases hp : s.start.phase = .resetting
    · exact .inl hp
    · exact .inr (by simpa [hp] using reaches)

theorem pagesKept_event {f : State → State} (h : PagesKept P s (f s)) : PagesKept P s (outOfReset s f) := by
  rcases outOfReset_cases s f with e | e <;> rw [e]
  · exact PagesKept.refl s
  · exact h

theorem pagesKept_whileRelaying {f : State → State} {p : Prop} (ha : s.start.phase = .resetting ∨ p)
    (h : p → PagesKept P s (f s)) : PagesKept P s (whileRelaying s f) := by
  unfold whileRelaying
  split
  case isTrue => exact PagesKept.refl s
  case isFalse hp => exact h (ha.resolve_left hp)

/-- The commands of the host: its transactions, whole, broken off, or ended by the limit of holds. -/
def ofHost : Instr → Bool
  | .hostPassedWrite .. | .hostVetoedWrite .. | .hostAddressProbe .. | .hostRandomRead .. | .hostCurrentAddressRead ..
  | .busError .. | .clockHoldLimit .. => true
  | _ => false

theorem pagesKeptAfter_host (hP : ∀ p, P p → guardRole (confirmIfAwaiting s) p = .vetoed) (h : memoryOk s) {c : Instr}
    (hc : ofHost c = true) : PagesKeptAfter P s (exec c s) := by
  have arrives {x : HostTxn} (ack : Bool) (hx : s.start.phase = .resetting ∨ x.inMemory = true) :
      PagesKept P s (settle (hostArrives x ack s)) := (pagesKept_hostArrives hP ack h hx).settled
  have named {a : Addr} {x : HostTxn} (ack : Bool) (hx : a.toNat < memorySize → x.inMemory = true) :
      PagesKeptAfter P s (addressed a s fun s => settle (hostArrives x ack s)) :=
    pagesKeptAfter_addressed fun ha => arrives ack (ha.imp id hx)
  have broken {x : BrokenAt} (hx : s.start.phase = .resetting ∨ BrokenAt.inMemory x) :
      PagesKept P s (whileRelaying s fun s => settle (busBroken x s)) :=
    pagesKept_whileRelaying hx fun hx => (pagesKept_busBroken hP h hx).settled
  have limited {x : HoldPoint} (hx : s.start.phase = .resetting ∨ HoldPoint.inMemory x) :
      PagesKept P s (whileRelaying s fun s => settle (holdLimit x s)) :=
    pagesKept_whileRelaying hx fun hx => (pagesKept_holdLimit hP h hx).settled
  cases c with
  | hostPassedWrite a data e ack => exact named ack decide_eq_true
  | hostVetoedWrite a data e ack => exact named ack decide_eq_true
  | hostAddressProbe a k =>
    cases a with
    | none => exact pagesKeptAfter_complete (arrives _ (.inr rfl))
    | some a => exact named k.ack decide_eq_true
  | hostRandomRead a n k => exact named k.ack decide_eq_true
  | hostCurrentAddressRead n k => exact pagesKeptAfter_complete (arrives _ (.inr rfl))
  | busError x =>
    rcases x with acked | ⟨a, data⟩ | ⟨_ | a, n⟩ <;> simp only [exec, execBusError]
    case inAddress | inRead.none => exact pagesKeptAfter_complete (broken (.inr trivial))
    case inWrite => exact pagesKeptAfter_addressed fun ha => broken (x := .inWrite a data) ha
    case inRead.some => exact pagesKeptAfter_addressed fun _ => broken (.inr trivial)
  | clockHoldLimit x =>
    rcases x with _ | _ | ⟨a, data⟩ | ⟨_ | a, n⟩ <;> simp only [exec, execClockHoldLimit]
    case atAcknowledge =>
      exact pagesKeptAfter_complete (pagesKept_whileRelaying (.inr trivial) fun hx => pagesKept_holdLimit hP h hx)
    case inAddress | inRead.none => exact pagesKeptAfter_complete (limited (.inr trivial))
    case inWrite => exact pagesKeptAfter_addressed fun ha => limited (x := .inWrite a data) ha
    case inRead.some => exact pagesKeptAfter_addressed fun _ => limited (.inr trivial)
  | _ => exact nomatch hc

end

/-! ### The record writer's commands that let a held host transaction go on -/

theorem vetoedKept_ownWriteConfirmed {s : State} (h : memoryOk s) :
    PagesKeptAfter alwaysVetoed s (execOwnWriteConfirmed s) := by
  have confirmed := mild_confirmWrite (Mild.refl s)
  refine pagesKeptAfter_complete (pagesKept_event ?_)
  split
  · exact confirmed.pagesKept.trans (vetoedKept_resume _ (confirmed.memoryOk h))
  · exact PagesKept.refl s

theorem vetoedKept_ownReadComplete {s : State} (h : memoryOk s) : PagesKeptAfter alwaysVetoed s (execOwnReadComplete s) := by
  refine pagesKeptAfter_complete (pagesKept_event ?_)
  split
  · exact (vetoedKept_readDone s _).trans (vetoedKept_resume _ (memoryOk_readDone _ h))
  · exact PagesKept.refl s

/-- The active tariff bank is vetoed in every state (R50). -/
theorem bankRole_active (t : Tariff) : bankRole t t.bank = .vetoed := by
  simp [bankRole]

theorem guardRole_bankA {s : State} {p : Nat} (lo : 10 ≤ p) (hi : p ≤ 41) : guardRole s p = bankRole s.tariff .a := by
  unfold guardRole
  rw [if_neg (by omega), if_neg (by omega), if_neg (by omega), if_neg (by omega), if_neg (by omega), if_pos hi]

theorem guardRole_bankB {s : State} {p : Nat} (lo : 42 ≤ p) (hi : p ≤ 73) : guardRole s p = bankRole s.tariff .b := by
  unfold guardRole
  rw [if_neg (by omega), if_neg (by omega), if_neg (by omega), if_neg (by omega), if_neg (by omega), if_neg (by omega),
    if_pos hi]

/-- Settles O53: a transaction is classified behind the confirmation of an own write that awaited it, and stores in passed
pages alone; an always vetoed page is one in every state. -/
theorem hostLeavesProtectedPages : Obligations.HostLeavesProtectedPages := by
  refine ⟨fun c s t h hexec => ?_, fun x held s h hx b hb => ?_, fun s p hp => ?_⟩
  · have always (u : State) : ∀ p, alwaysVetoed p → guardRole u p = .vetoed := fun _ => guardRole_alwaysVetoed u
    have host {P : Nat → Prop} (hP : ∀ p, P p → guardRole (confirmIfAwaiting s) p = .vetoed) (hc : ofHost c = true) :
        PagesKept P s t := pagesKeptAfter_host hP h hc t hexec
    refine ⟨fun hc => ?_, fun hc b hb => ?_⟩
    · rcases hc with hc | rfl | rfl | ⟨ack, rfl⟩ | ⟨x, rfl⟩
      · refine host (always _) ?_
        rcases hc with ⟨a, d, e, k, rfl⟩ | ⟨a, d, e, k, rfl⟩ | ⟨a, k, rfl⟩ | ⟨a, n, k, rfl⟩ | ⟨n, k, rfl⟩ | ⟨x, rfl⟩ | ⟨x, rfl⟩ <;>
          rfl
      · exact vetoedKept_ownWriteConfirmed h t hexec
      · exact vetoedKept_ownReadComplete h t hexec
      · exact pagesKeptAfter_complete (pagesKept_event (vetoedKept_memoryPoll ack h)) t hexec
      · exact pagesKeptAfter_complete (pagesKept_event (vetoedKept_ownFailure _ _ h)) t hexec
    · refine host (P := fun p => guardRole (confirmIfAwaiting s) p = .vetoed) (fun _ hp => hp) ?_ b hb
      rcases hc with ⟨a, d, e, k, rfl⟩ | ⟨a, d, e, k, rfl⟩ | ⟨a, k, rfl⟩ | ⟨a, n, k, rfl⟩ | ⟨n, k, rfl⟩ | ⟨x, rfl⟩ | ⟨x, rfl⟩ <;>
        rfl
  · exact pagesKept_perform (P := fun p => guardRole s p = .vetoed) (fun _ hp => hp) held h hx b hb
  · rcases hp with ⟨bank, lo, hi⟩ | ⟨bank, lo, hi⟩
    · rw [guardRole_bankA lo hi, ← bank, bankRole_active]
    · rw [guardRole_bankB lo hi, ← bank, bankRole_active]

/-! ### Only writes change the memory -/

/-- If the command goes on, it leaves the memory's bytes as they were. -/
def MemKeptAfter (s : State) (o : Host.Outcome State Fault Refusal) : Prop := ∀ t, o = .next t → t.link.mem = s.link.mem

theorem Mild.mem {s t : State} (h : Mild s t) : t.link.mem = s.link.mem := by rw [h.link]

theorem settle_mem (s : State) : (settle s).link.mem = s.link.mem := (mild_settle (Mild.refl s)).mem

theorem memKeptAfter_complete {s u : State} (h : u.link.mem = s.link.mem) : MemKeptAfter s (complete u) := fun _ e =>
  complete_eq e ▸ (mild_refreshPins (Mild.refl u)).mem.trans h

theorem memKeptAfter_settled {s u : State} (h : u.link.mem = s.link.mem) : MemKeptAfter s (complete (settle u)) :=
  memKeptAfter_complete ((settle_mem u).trans h)

theorem memKeptAfter_event {s : State} {f : State → State} (h : (f s).link.mem = s.link.mem) :
    MemKeptAfter s (complete (outOfReset s f)) := by
  refine memKeptAfter_complete ?_
  rcases outOfReset_cases s f with e | e <;> rw [e]
  exact h

theorem memKeptAfter_addressed {s : State} {a : Addr} {f : State → State} (h : (f s).link.mem = s.link.mem) :
    MemKeptAfter s (addressed a s f) := by
  unfold addressed
  split
  · exact fun t e => nomatch e
  · exact memKeptAfter_complete h

theorem whileRelaying_mem {s : State} {f : State → State} (h : (f s).link.mem = s.link.mem) :
    (whileRelaying s f).link.mem = s.link.mem := by
  unfold whileRelaying
  split
  · rfl
  · exact h

theorem confirmIfAwaiting_mem (s : State) : (confirmIfAwaiting s).link.mem = s.link.mem :=
  (mild_confirmIfAwaiting (Mild.refl s)).mem

theorem confirmIf_mem (acked : Bool) (s : State) : (if acked then confirmIfAwaiting s else s).link.mem = s.link.mem := by
  split
  · exact confirmIfAwaiting_mem s
  · rfl

/-- A host transaction that is no write. -/
def HostTxn.isWrite : HostTxn → Bool
  | .write _ _ _ => true
  | _ => false

theorem perform_mem {x : HostTxn} (hx : HostTxn.isWrite x = false) (held : Bool) (s : State) :
    (perform x held s).link.mem = s.link.mem := by
  unfold perform
  dsimp only
  split
  · exact nomatch hx
  all_goals exact endTxn_mem _ _ _

theorem hostArrives_mem {x : HostTxn} (hx : HostTxn.isWrite x = false) (ack : Bool) (s : State) :
    (hostArrives x ack s).link.mem = s.link.mem := by
  unfold hostArrives
  split
  · rfl
  · split
    · rfl
    · split
      · rfl
      · split
        · exact (perform_mem hx _ _).trans (confirmIfAwaiting_mem s)
        · split
          · rfl
          · exact endTxn_mem _ _ _

/-- A place of a bus error that is no write's. -/
theorem busBroken_mem {x : BrokenAt} (hx : ∀ a d, x ≠ .inWrite a d) (s : State) :
    (busBroken x s).link.mem = s.link.mem := by
  have broken : (breakOff x s).link.mem = s.link.mem := by
    unfold breakOff
    split
    · exact confirmIf_mem _ s
    · exact absurd rfl (hx _ _)
    · exact confirmIfAwaiting_mem s
    · exact confirmIfAwaiting_mem s
  unfold busBroken
  dsimp only
  split
  · rfl
  · exact broken

theorem holdLimit_mem {x : HoldPoint} (hx : ∀ a d, x ≠ .inWrite a d) (s : State) :
    (holdLimit x s).link.mem = s.link.mem := by
  have inside (u : State) : (limitInside x u).link.mem = u.link.mem := by
    unfold limitInside
    split
    case h_3 => exact absurd rfl (hx _ _)
    all_goals rfl
  unfold holdLimit
  split
  · split
    · exact releaseHost_mem _
    · rfl
  · split
    · rfl
    · exact (inside _).trans (confirmIfAwaiting_mem s)

/-! With no host transaction held, the record writer's commands have none to carry out. -/

theorem resume_mem {s : State} (h : s.link.held = none) (ack : Bool) : (resume ack s).link.mem = s.link.mem := by
  unfold resume
  rw [if_neg (by simp [h])]
  exact settle_mem s

theorem performHeld_none {s : State} (h : s.link.held = none) : performHeld s = s := by
  simp [performHeld, h]

theorem Mild.resume_mem {s t : State} (h : Mild s t) (held : s.link.held = none) (ack : Bool) :
    (resume ack t).link.mem = s.link.mem :=
  (Machine.resume_mem (by rw [h.link, held]) ack).trans h.mem

theorem memoryPoll_mem {s : State} (h : s.link.held = none) (ack : Bool) : (memoryPoll ack s).link.mem = s.link.mem := by
  unfold memoryPoll pollAnswered
  split
  · split
    · refine (settle_mem _).trans ?_
      rw [if_neg (by simp [h])]
      split
      · exact (mild_beginTransaction (Mild.refl s)).mem
      · rfl
    · exact (mild_confirmWrite (Mild.refl s)).resume_mem h true
    · rw [performHeld_none h]
      exact settle_mem s
    all_goals exact settle_mem s
  · exact settle_mem s

theorem ownFailure_mem {s : State} (h : s.link.held = none) (at_ : NakAt) (ack : Bool) :
    (ownFailure at_ ack s).link.mem = s.link.mem := by
  have failed {t : State} (ht : t.link.held = none) : (resume ack (failAttempt t)).link.mem = t.link.mem :=
    (mild_failAttempt (Mild.refl t)).resume_mem ht ack
  unfold ownFailure
  split
  · exact failed (t := s.onLink _) h
  · exact failed (t := loseAddress s) h
  · rcases onExpiry_cases s.writer.limit s fun u => resume ack (failAttempt u) with e | ⟨x, _, e⟩ <;> rw [e]
    exact failed (t := s.reach x) h
  · exact settle_mem s

theorem readDone_link (a : Nat) (s : State) :
    (readDone a s).link = { s.link with tracked := some ((a + 64) % memorySize) } := by
  unfold readDone
  dsimp only
  split
  · exact (mild_deliver _ _ _ (Mild.refl _)).link
  · rfl

theorem takeMemoryFault_mem {s : State} (h : s.writer.phase ≠ .awaiting) : (takeMemoryFault s).link.mem = s.link.mem := by
  unfold takeMemoryFault
  dsimp only
  split
  · exact (mild_failAttempt (Mild.refl _)).mem.trans (releaseHost_mem _)
  case h_2 awaiting => exact absurd awaiting h
  · exact releaseHost_mem _

theorem memKeptAfter_memoryFault {s : State} (h : s.writer.phase ≠ .awaiting) : MemKeptAfter s (execMemoryFault s) := by
  refine memKeptAfter_event ?_
  rcases onExpiry_cases (faultTime s) s fun t => settle (takeMemoryFault t) with e | ⟨x, _, e⟩ <;> rw [e]
  exact (settle_mem _).trans (takeMemoryFault_mem (s := s.reach x) h)

/-- Settles O54: a command of another block leaves the memory port alone; of the link's, those left store nothing. -/
theorem onlyWritesChangeMemory : Obligations.OnlyWritesChangeMemory := by
  intro c s t hexec notPassed notVetoed notBroken notLimited notPower notReset notStop notFault notHeld
  refine (?_ : MemKeptAfter s (exec c s)) t hexec
  cases hc : linkOrReset c with
  | false => exact fun t e => (mildAfter_exec hc s t e).mem
  | true =>
    cases c with
    | powerOnReset => exact absurd rfl notPower
    | rstReset => exact absurd rfl notReset
    | ownWriteStop => exact absurd rfl notStop
    | hostPassedWrite a d e k => exact absurd rfl (notPassed a d e k)
    | hostVetoedWrite a d e k => exact absurd rfl (notVetoed a d e k)
    | endOfReset => exact fun t e => (mildAfter_endOfReset s t e).mem
    | hostAddressProbe a k =>
      cases a with
      | none =>
        simp only [exec, execHostAddressProbe]
        exact memKeptAfter_settled (hostArrives_mem rfl _ s)
      | some a =>
        simp only [exec, execHostAddressProbe]
        exact memKeptAfter_addressed ((settle_mem _).trans (hostArrives_mem rfl _ s))
    | hostRandomRead a n k =>
      simp only [exec, execHostRandomRead]
      exact memKeptAfter_addressed ((settle_mem _).trans (hostArrives_mem rfl _ s))
    | hostCurrentAddressRead n k =>
      simp only [exec, execHostCurrentAddressRead]
      exact memKeptAfter_settled (hostArrives_mem rfl _ s)
    | busError x =>
      have broken (hx : ∀ a d, x ≠ .inWrite a d) :
          (whileRelaying s fun s => settle (busBroken x s)).link.mem = s.link.mem :=
        whileRelaying_mem ((settle_mem _).trans (busBroken_mem hx s))
      rcases x with acked | ⟨a, data⟩ | ⟨_ | a, n⟩ <;> simp only [exec, execBusError]
      case inWrite => exact absurd rfl (notBroken a data)
      case inAddress | inRead.none => exact memKeptAfter_complete (broken fun _ _ => nofun)
      case inRead.some => exact memKeptAfter_addressed (broken fun _ _ => nofun)
    | clockHoldLimit x =>
      have limited (hx : ∀ a d, x ≠ .inWrite a d) :
          (whileRelaying s fun s => settle (holdLimit x s)).link.mem = s.link.mem :=
        whileRelaying_mem ((settle_mem _).trans (holdLimit_mem hx s))
      rcases x with _ | _ | ⟨a, data⟩ | ⟨_ | a, n⟩ <;> simp only [exec, execClockHoldLimit]
      case inWrite => exact absurd rfl (notLimited a data)
      case atAcknowledge => exact memKeptAfter_complete (whileRelaying_mem (holdLimit_mem (x := .atAcknowledge) (fun _ _ => nofun) s))
      case inAddress | inRead.none => exact memKeptAfter_complete (limited fun _ _ => nofun)
      case inRead.some => exact memKeptAfter_addressed (limited fun _ _ => nofun)
    | ownTransactionStart ack => exact memKeptAfter_event (mild_ownStart ack (Mild.refl s)).mem
    | memoryFault => exact memKeptAfter_memoryFault (notFault.resolve_left fun h => h rfl)
    | ownWriteConfirmed =>
      have free := notHeld.resolve_right fun h => h.1 rfl
      refine memKeptAfter_event ?_
      split
      · exact (mild_confirmWrite (Mild.refl s)).resume_mem free true
      · rfl
    | ownReadComplete =>
      have free := notHeld.resolve_right fun h => h.2.1 rfl
      refine memKeptAfter_event ?_
      split
      · exact (resume_mem (by rw [readDone_link]; exact free) true).trans (by rw [readDone_link])
      · rfl
    | memoryPoll ack => exact memKeptAfter_event (memoryPoll_mem (notHeld.resolve_right fun h => h.2.2.1 ack rfl) ack)
    | ownAttemptFailure x =>
      exact memKeptAfter_event (ownFailure_mem (notHeld.resolve_right fun h => h.2.2.2 x rfl) _ _)
    | _ => exact nomatch hc

end Sys2Proof.Machine
end

section
/-!
PROOFS. The stages after a command (log 8): what they leave alone, when they rest, and which slots leave the incident table
(R144, R146).
-/

namespace Sys2Proof.Machine

/-! ### The incident table, kind by kind -/

theorem PerKind.get_put_self {α : Type} (e : PerKind α) (k : IncidentKind) (a : α) : (e.put k a).get k = a := by
  cases k <;> rfl

theorem PerKind.get_put_of_ne {α : Type} (e : PerKind α) {j k : IncidentKind} (a : α) (h : j ≠ k) :
    (e.put k a).get j = e.get j := by
  cases k <;> cases j <;> first | rfl | exact absurd rfl h

theorem mem_kindList (k : IncidentKind) : k ∈ IncidentKind.list := by cases k <;> decide

/-- The slots in use are those that their kinds have. -/
theorem mem_kindSlots {i : Incidents} {p : IncidentKind × Slot} : p ∈ kindSlots i ↔ i.slots.get p.1 = some p.2 := by
  obtain ⟨k, x⟩ := p
  simp only [kindSlots, List.mem_filterMap, Option.map_eq_some_iff, Prod.mk.injEq]
  constructor
  · rintro ⟨j, -, y, hy, rfl, rfl⟩
    exact hy
  · exact fun h => ⟨k, mem_kindList k, x, h, rfl, rfl⟩

theorem kindSlots_length_le (i : Incidents) : (kindSlots i).length ≤ 16 := List.length_filterMap_le _ _

/-- A kind whose slot is emptied leaves the list of slots in use. -/
theorem kindSlots_put_none {i j : Incidents} {k : IncidentKind} (h : j.slots = i.slots.put k none) :
    kindSlots j = (kindSlots i).filter fun p => p.1 != k := by
  unfold kindSlots
  rw [List.filter_filterMap, h]
  refine List.filterMap_congr fun m _ => ?_
  by_cases hm : m = k
  · subst hm
    rw [PerKind.get_put_self]
    cases i.slots.get m <;> simp [Option.filter]
  · rw [PerKind.get_put_of_ne _ _ hm]
    cases i.slots.get m <;> simp [hm, Option.filter]

/-! ### The oldest of the slots that may leave -/

theorem newer_iff {a b : Nat} : newer a b = true ↔ 1 ≤ gap16 a b ∧ gap16 a b ≤ 32767 := by simp [newer]

theorem newer_irrefl (a : Nat) : newer a a = false := by
  rw [Bool.eq_false_iff, Ne, newer_iff, gap16]
  omega

theorem newer_asymm {a b : Nat} (h : newer a b = true) : newer b a = false := by
  rw [Bool.eq_false_iff, Ne, newer_iff, gap16]
  rw [newer_iff, gap16] at h
  omega

/-- A slot that every other one is newer than is the one found: it stays once met, and is met where it stands in the list. -/
theorem foldl_olderSlot_oldest {p : IncidentKind × Slot} : ∀ (l : List (IncidentKind × Slot)) (best : Option (IncidentKind × Slot)),
    (∀ q ∈ l, q = p ∨ newer q.2.seq p.2.seq = true) →
    best = some p ∨ (p ∈ l ∧ ∀ q, best = some q → newer q.2.seq p.2.seq = true) → l.foldl olderSlot best = some p
  | [], best, _, h => h.resolve_right fun k => List.not_mem_nil k.1
  | q :: rest, best, hl, h => by
    refine foldl_olderSlot_oldest rest (olderSlot best q) (fun r hr => hl r (List.mem_cons_of_mem _ hr)) ?_
    have hq := hl q List.mem_cons_self
    rcases h with rfl | ⟨hp, hbest⟩
    · left
      have : newer p.2.seq q.2.seq = false := by
        rcases hq with rfl | hq
        · exact newer_irrefl _
        · exact newer_asymm hq
      simp [olderSlot, this]
    · by_cases e : q = p
      · subst e
        left
        cases best with
        | none => rfl
        | some r => simp [olderSlot, hbest r rfl]
      · have hq := hq.resolve_left e
        refine .inr ⟨(List.mem_cons.mp hp).resolve_left (Ne.symm e), fun r hr => ?_⟩
        cases best with
        | none => cases hr; exact hq
        | some b =>
          simp only [olderSlot] at hr
          split at hr <;> cases hr
          · exact hq
          · exact hbest _ rfl

theorem foldl_olderSlot_mem {p : IncidentKind × Slot} : ∀ (l : List (IncidentKind × Slot)) (best : Option (IncidentKind × Slot)),
    l.foldl olderSlot best = some p → best = some p ∨ p ∈ l
  | [], _, h => .inl h
  | q :: rest, best, h => by
    rcases foldl_olderSlot_mem rest (olderSlot best q) h with h | h
    · cases best with
      | none => cases h; exact .inr List.mem_cons_self
      | some b =>
        simp only [olderSlot] at h
        split at h <;> cases h
        · exact .inr List.mem_cons_self
        · exact .inl rfl
    · exact .inr (List.mem_cons_of_mem _ h)

/-- The slot is CLOSED_PENDING and its report state final (R144). -/
theorem mayLeave_iff (x : Slot) : x.mayLeave = true ↔
    x.closedPending = true ∧ (x.report = .reported ∨ x.report = .reportFailed ∨ x.report = .notRequired) := by
  simp [Slot.mayLeave, or_assoc]

/-- The slots that may leave. -/
def readySlots (s : State) : List (IncidentKind × Slot) := (kindSlots s.inc).filter (·.2.mayLeave)

theorem mem_readySlots {s : State} {k : IncidentKind} {x : Slot} : (k, x) ∈ readySlots s ↔
    s.inc.slots.get k = some x ∧ x.closedPending = true ∧
      (x.report = .reported ∨ x.report = .reportFailed ∨ x.report = .notRequired) := by
  rw [readySlots, List.mem_filter, mem_kindSlots, mayLeave_iff]

/-- Below 64 unacknowledged records and below the quota of 6 items a slot may leave (R146, R169). -/
def roomForLog (s : State) : Prop := s.inc.unacked < 64 ∧ itemsOf .incident s.writer.queue < 6

theorem leaving_of_room {s : State} (h : roomForLog s) : leaving s = (readySlots s).foldl olderSlot none := by
  have room : hasRoom .incident s = true := decide_eq_true h.2
  simp [leaving, readySlots, h.1, room]

theorem leaving_of_no_room {s : State} (h : ¬ roomForLog s) : leaving s = none := by
  refine if_neg fun k => h ?_
  rw [Bool.and_eq_true_iff] at k
  exact ⟨of_decide_eq_true k.1, of_decide_eq_true k.2⟩

theorem leaving_some {s : State} {p : IncidentKind × Slot} (h : leaving s = some p) : p ∈ readySlots s ∧ roomForLog s := by
  by_cases room : roomForLog s
  · rw [leaving_of_room room] at h
    exact ⟨(foldl_olderSlot_mem _ _ h).resolve_left nofun, room⟩
  · rw [leaving_of_no_room room] at h
    cases h

theorem leaving_of_nothing_ready {s : State} (h : readySlots s = []) : leaving s = none := by
  by_cases room : roomForLog s
  · rw [leaving_of_room room, h]
    rfl
  · exact leaving_of_no_room room

theorem leaveStage_none {s : State} (h : leaving s = none) (n : Nat) : leaveStage n s = s := by
  cases n <;> simp [leaveStage, h]

theorem leaveStage_some {s : State} {k : IncidentKind} {x : Slot} (h : leaving s = some (k, x)) (n : Nat) :
    leaveStage (n + 1) s = leaveStage n (queueIncident k x s) := by
  simp [leaveStage, h]

/-- The slot that leaves is one of those in use. -/
theorem kindSlots_queueIncident_lt {s : State} {k : IncidentKind} {x : Slot} (h : s.inc.slots.get k = some x) :
    (kindSlots (queueIncident k x s).inc).length < (kindSlots s.inc).length := by
  rw [kindSlots_put_none (i := s.inc) (k := k) rfl]
  exact List.length_filter_lt_length_iff_exists.mpr ⟨(k, x), mem_kindSlots.mpr h, by simp⟩

/-- Each slot that leaves is one less in use, so as many turns as slots in use are enough. -/
theorem leaving_leaveStage : ∀ (n : Nat) (s : State), (kindSlots s.inc).length ≤ n → leaving (leaveStage n s) = none
  | 0, s, h => by
    rw [leaveStage]
    exact leaving_of_nothing_ready (by simp [readySlots, List.eq_nil_of_length_eq_zero (Nat.le_zero.mp h)])
  | n + 1, s, h => by
    cases hl : leaving s with
    | none => rw [leaveStage_none hl, hl]
    | some p =>
      obtain ⟨k, x⟩ := p
      have used := (mem_readySlots.mp (leaving_some hl).1).1
      have := kindSlots_queueIncident_lt used
      rw [leaveStage_some hl]
      exact leaving_leaveStage n _ (by omega)

/-! ### The stages at rest -/

theorem contextStage_rest {s : State} (h : formContext s = s.tamper.context) : contextStage s = s := if_pos h

theorem reactStage_rest {s : State} (h : s.dial.react = false) : reactStage s = s := by simp [reactStage, h]

/-- No producer holds anything. -/
structure NothingHeld (s : State) : Prop where
  records : s.call.heldRecords = []
  vault : s.vault.held = []
  response : s.req.heldResponse = none
  configRead : s.req.wantRead = none
  bankSwitch : s.tariff.heldSwitch = false
  bankRead : s.tariff.wantRead = none
  startRead : s.start.want = none

theorem releaseHeld_rest {s : State} (h : NothingHeld s) : releaseHeld s = s := by
  have record : releaseHeldRecord s = s := by simp [releaseHeldRecord, h.records]
  have vault : releaseHeldVault s = s := by simp [releaseHeldVault, h.vault]
  have request : releaseHeldRequest s = s := by simp [releaseHeldRequest, h.response, h.configRead]
  have rating : releaseHeldRating s = s := by simp [releaseHeldRating, h.bankSwitch, h.bankRead]
  have start : releaseStartRead s = s := by simp [releaseStartRead, h.startRead]
  simp only [releaseHeld, record, vault, request, rating, start]

/-- Settles O11. -/
theorem settleFrameAndRest : Obligations.SettleFrameAndRest := by
  refine ⟨fun s => ?_, fun s context react leave records vault response configRead bankSwitch bankRead startRead => ?_,
    fun s => ⟨fun k x ready unacked items oldest => ?_, fun h => ?_, fun k x h => ?_, fun h => leaveStage_none h,
      leaving_leaveStage 16 s (kindSlots_length_le _)⟩, fun s => ⟨rfl, rfl⟩⟩
  · have c := calm_settle (Calm.refl s)
    exact ⟨c.now, c.clock, c.pfw, c.pending, c.draws, c.link, c.startPhase, c.rstHeld, c.writerPhase, c.accept, c.flapC,
      c.flapR, c.transit, c.escrow, c.keys, c.buffer, c.sender, c.quotas⟩
  · have reactions : reactions s = s := by
      simp only [Machine.reactions, contextStage_rest context, reactStage_rest react]
    rw [settle, reactions, leaveStage_none leave]
    exact releaseHeld_rest ⟨records, vault, response, configRead, bankSwitch, bankRead, startRead⟩
  · rw [leaving_of_room ⟨unacked, items⟩]
    refine foldl_olderSlot_oldest _ none (fun ⟨j, y⟩ hq => ?_) (.inr ⟨mem_readySlots.mpr ready, nofun⟩)
    have hq := mem_readySlots.mp hq
    by_cases e : j = k
    · subst e
      exact .inl (by rw [Option.some.inj (hq.1.symm.trans ready.1)])
    · exact .inr (oldest j y hq e)
  · rcases h with h | h | h
    · exact leaving_of_no_room fun room => Nat.not_lt.mpr h room.1
    · exact leaving_of_no_room fun room => Nat.not_lt.mpr h room.2
    · exact leaving_of_nothing_ready (List.eq_nil_iff_forall_not_mem.mpr fun p hp => h p.1 p.2 (mem_readySlots.mp hp))
  · obtain ⟨ready, room⟩ := leaving_some h
    exact ⟨mem_readySlots.mp ready, room.1, room.2, leaveStage_some h⟩

end Sys2Proof.Machine
end

section
/-!
PROOFS. Rating: unit charges and the shadow of a bank image (O22), the period (O23), the debit (O24) and the balance that it keeps
(O25).
-/

namespace Sys2Proof.Machine

/-! ### Saturating sums -/

theorem satAdd_eq_min (top a b : Nat) : satAdd top a b = min top (a + b) := by
  unfold satAdd
  split <;> omega

theorem satAdd_of_le {top a b : Nat} (h : a + b ≤ top) : satAdd top a b = a + b := if_pos h

theorem overflows_of_le {x v : Nat} (h : x + v ≤ 999999) : overflows x v = false := by
  exact decide_eq_false (Nat.not_lt.mpr h)

/-! ### Unit charges and the shadow of a bank image -/

/-- A quotient rounded up is the least whose multiple covers the number. -/
theorem ceilDiv_covers {n d : Nat} (hd : 0 < d) : n ≤ d * ((n + (d - 1)) / d) := by
  have h := Nat.lt_mul_div_succ (n + (d - 1)) hd
  have e : d * ((n + (d - 1)) / d + 1) = d * ((n + (d - 1)) / d) + d := Nat.mul_succ ..
  omega

theorem ceilDiv_le {n d v : Nat} (hd : 0 < d) (h : n ≤ d * v) : (n + (d - 1)) / d ≤ v := by
  have e : d * v.succ = d * v + d := Nat.mul_succ ..
  exact Nat.lt_succ_iff.mp (Nat.div_lt_of_lt_mul (by omega))

theorem unitChargeExact_covers (r s : Nat) {k : Nat} (hk : 0 < k) : r * s ≤ 60 * unitChargeExact r s k := by
  have h := ceilDiv_covers (n := r * s) (d := 60 * k) (by omega)
  rwa [Nat.mul_assoc] at h

theorem unitChargeExact_le {r s k u : Nat} (hk : 0 < k) (hu : k ∣ u) (h : r * s ≤ 60 * u) : unitChargeExact r s k ≤ u := by
  obtain ⟨v, rfl⟩ := hu
  exact Nat.mul_le_mul_left k (ceilDiv_le (by omega) (by rwa [Nat.mul_assoc]))

/-- Settles O22. -/
theorem unitChargeAndShadow : Obligations.UnitChargeAndShadow := by
  unfold Obligations.UnitChargeAndShadow
  refine ⟨fun r s k hk => ⟨Nat.dvd_mul_right .., unitChargeExact_covers r s hk, fun u => unitChargeExact_le hk⟩,
    fun t i h => ?_, fun t i => ?_, fun t => ?_⟩
  · simp [bandAt, h, clampCharge]
  · refine ⟨fun h => ?_, fun h => ?_, ?_, ?_, rfl, rfl, rfl, rfl⟩
    · simp [bandAt, h]
    · simp [bandAt, h]
    · simp [bandAt]
    · simp [bandAt]
  · refine ⟨rfl, rfl, rfl, rfl, rfl, rfl, by decide, by simp [shadowOf], fun i hi => ?_, by simp [shadowOf], fun i hi => ?_⟩
    · simp [shadowOf, hi]
    · simp [shadowOf, hi, routeAt, routeDigits, routeOffset, codes]

/-! ### The period of a charging step -/

theorem offPeak_iff (x : RatingContext) (c : Clock) : offPeak x c = true ↔
    c.isSet = true ∧
      ((x.offStart < x.offEnd ∧ x.offStart ≤ c.sec / 60 ∧ c.sec / 60 < x.offEnd) ∨
       (x.offEnd < x.offStart ∧ (x.offStart ≤ c.sec / 60 ∨ c.sec / 60 < x.offEnd))) := by
  unfold offPeak
  rw [Bool.and_eq_true]
  refine and_congr_right fun _ => ?_
  split
  · simp only [Bool.and_eq_true, decide_eq_true_eq]; omega
  · split
    · simp only [Bool.or_eq_true, decide_eq_true_eq]; omega
    · simp only [Bool.false_eq_true, false_iff]; omega

/-- Settles O23. -/
theorem peakAndOffPeak : Obligations.PeakAndOffPeak := by
  unfold Obligations.PeakAndOffPeak
  intro x c hx
  simp only [unitNow, hx, offPeak_iff]

/-! ### Collect requests -/

/-- An entry that a collect request can commit. -/
def Escrow.committable (x : Escrow) : Bool := decide (x.st = .held ∧ x.standing = .credit)

/-- How many entries collect requests can commit. -/
def committables (q : List Escrow) : Nat := (q.filter (·.committable)).length

theorem committables_le (q : List Escrow) : committables q ≤ q.length := List.length_filter_le ..

/-- The oldest entry that can be committed, with those before and behind it. -/
theorem commitFirst_append {pre post : List Escrow} {x : Escrow} (hpre : ∀ y ∈ pre, ¬ (y.st = .held ∧ y.standing = .credit))
    (hx : x.st = .held ∧ x.standing = .credit) :
    commitFirst (pre ++ x :: post) =
      some (x.value, pre ++ { x with st := .releasingCollect, standing := .committed } :: post) := by
  induction pre with
  | nil => simp [commitFirst, hx]
  | cons y rest ih =>
    have hy := hpre y List.mem_cons_self
    simp [commitFirst, hy, ih fun z hz => hpre z (List.mem_cons_of_mem _ hz)]

theorem commitFirst_eq_none {q : List Escrow} : commitFirst q = none ↔ ∀ y ∈ q, ¬ (y.st = .held ∧ y.standing = .credit) := by
  induction q with
  | nil => simp [commitFirst]
  | cons y rest ih =>
    by_cases hy : y.st = .held ∧ y.standing = .credit
    · simp [commitFirst, hy]
    · simp only [commitFirst, hy, if_false, Option.map_eq_none_iff, ih, List.forall_mem_cons, not_false_eq_true, true_and]

/-- What a committed coin takes out of the escrow value and out of the coins that can be committed. -/
theorem commitFirst_some {q r : List Escrow} {v : Nat} (h : commitFirst q = some (v, r)) :
    creditSum q = v + creditSum r ∧ committables q = committables r + 1 := by
  induction q generalizing r with
  | nil => simp [commitFirst] at h
  | cons y rest ih =>
    by_cases hy : y.st = .held ∧ y.standing = .credit
    · simp only [commitFirst, hy, and_self, if_true, Option.some.injEq, Prod.mk.injEq] at h
      obtain ⟨rfl, rfl⟩ := h
      simp [creditSum, committables, Escrow.committable, hy]
    · simp only [commitFirst, hy, if_false, Option.map_eq_some_iff, Prod.exists, Prod.mk.injEq] at h
      obtain ⟨w, t, ht, rfl, rfl⟩ := h
      obtain ⟨sums, counts⟩ := ih ht
      constructor
      · simp only [creditSum, List.map_cons, List.sum_cons] at sums ⊢
        omega
      · simpa [committables, Escrow.committable, hy] using counts

/-- The state after a collect request that leaves the queue `q`: the value moves from E to B. -/
def collected (v : Nat) (q : List Escrow) (s : State) : State :=
  (s.onCoin fun c => { c with escrow := q }).onAcct fun a => { a with e := a.e - v, b := a.b + v }

@[simp] theorem collected_escrow (v : Nat) (q : List Escrow) (s : State) : (collected v q s).coin.escrow = q := rfl

@[simp] theorem collected_acct (v : Nat) (q : List Escrow) (s : State) :
    (collected v q s).acct = { s.acct with e := s.acct.e - v, b := s.acct.b + v } := rfl

@[simp] theorem collected_call (v : Nat) (q : List Escrow) (s : State) : (collected v q s).call = s.call := rfl

theorem collectRequest_some {s t : State} {v : Nat} (h : collectRequest s = (some v, t)) :
    ∃ q, commitFirst s.coin.escrow = some (v, q) ∧ t = collected v q s := by
  unfold collectRequest at h
  split at h
  · cases h
  · split at h <;> cases h
    exact ⟨_, ‹_›, rfl⟩

/-- With no coin that can be committed a collect request answers none. -/
theorem collectRequest_of_committables {s : State} (h : committables s.coin.escrow = 0) : collectRequest s = (none, s) := by
  have none_left : commitFirst s.coin.escrow = none :=
    commitFirst_eq_none.mpr fun y hy k => by
      have := List.filter_eq_nil_iff.mp (List.eq_nil_of_length_eq_zero h) y hy
      simp [Escrow.committable, k] at this
  unfold collectRequest
  split
  · rfl
  · rw [none_left]

/-! ### The debit -/

theorem debitLoop_of_covered {u : Nat} (x : RatingContext) {s : State} (h : u ≤ s.acct.b) :
    ∀ fuel, debitLoop u x fuel s = payFromBanked u s
  | 0 => if_pos h
  | _ + 1 => if_pos h

theorem debitLoop_of_none {u : Nat} (x : RatingContext) {s t : State} (h : s.acct.b < u) (hc : collectRequest s = (none, t)) :
    ∀ fuel, debitLoop u x fuel s = enterGrace u x s
  | 0 => if_neg (by omega)
  | _ + 1 => by rw [debitLoop, if_neg (by omega), hc]

theorem debitLoop_succ_of_some {u : Nat} (x : RatingContext) {s t : State} {v : Nat} (h : s.acct.b < u)
    (hc : collectRequest s = (some v, t)) (fuel : Nat) : debitLoop u x (fuel + 1) s = debitLoop u x fuel t := by
  rw [debitLoop, if_neg (by omega), hc]

/-- As many turns as coins that can be committed are enough. -/
theorem debitLoop_succ (u : Nat) (x : RatingContext) : ∀ (fuel : Nat) {s : State}, committables s.coin.escrow ≤ fuel →
    debitLoop u x (fuel + 1) s = debitLoop u x fuel s := by
  intro fuel
  induction fuel with
  | zero =>
    intro s h
    by_cases hu : u ≤ s.acct.b
    · simp only [debitLoop_of_covered x hu]
    · simp only [debitLoop_of_none x (Nat.not_le.mp hu) (collectRequest_of_committables (by omega : committables s.coin.escrow = 0))]
  | succ fuel ih =>
    intro s h
    by_cases hu : u ≤ s.acct.b
    · simp only [debitLoop_of_covered x hu]
    · have hu := Nat.not_le.mp hu
      rcases hc : collectRequest s with ⟨_ | v, t⟩
      · simp only [debitLoop_of_none x hu hc]
      · obtain ⟨q, hq, rfl⟩ := collectRequest_some hc
        have counts := (commitFirst_some hq).2
        rw [debitLoop_succ_of_some x hu hc, debitLoop_succ_of_some x hu hc]
        exact ih (by rw [collected_escrow]; omega)

theorem debit_connected {u : Nat} {x : RatingContext} {s : State} (h : s.call.st ≠ .grace) :
    debit u x s = settingTest x (debitLoop u x s.coin.escrow.length s) := if_neg h

theorem debit_of_covered {u : Nat} (x : RatingContext) {s : State} (h : s.call.st ≠ .grace) (hu : u ≤ s.acct.b) :
    debit u x s = settingTest x (payFromBanked u s) := by rw [debit_connected h, debitLoop_of_covered x hu]

theorem debit_of_none {u : Nat} (x : RatingContext) {s t : State} (h : s.call.st ≠ .grace) (hu : s.acct.b < u)
    (hc : collectRequest s = (none, t)) : debit u x s = settingTest x (enterGrace u x s) := by
  rw [debit_connected h, debitLoop_of_none x hu hc]

/-- A coin that is committed first makes no difference to the rest of a debit. -/
theorem debit_of_some {u : Nat} (x : RatingContext) {s t : State} {v : Nat} (h : s.call.st ≠ .grace) (hu : s.acct.b < u)
    (hc : collectRequest s = (some v, t)) : debit u x s = debit u x t := by
  obtain ⟨q, hq, rfl⟩ := collectRequest_some hc
  have counts := (commitFirst_some hq).2
  have le := committables_le s.coin.escrow
  obtain ⟨n, hn⟩ : ∃ n, s.coin.escrow.length = n + 1 := ⟨s.coin.escrow.length - 1, by omega⟩
  rw [debit_connected h, debit_connected (s := collected v q s) h, collected_escrow, commitFirst_length hq, hn,
    debitLoop_succ_of_some x hu hc, debitLoop_succ u x n (by rw [collected_escrow]; omega)]

/-- Settles O24. -/
theorem debitInConnectedAndGrace : Obligations.DebitInConnectedAndGrace := by
  unfold Obligations.DebitInConnectedAndGrace
  refine ⟨fun u x s hs => ?_, fun u x s hs => if_pos hs⟩
  have hs : s.call.st ≠ .grace := by simp [hs]
  exact ⟨fun hu => debit_of_covered x hs hu, fun v t hu hc => debit_of_some x hs hu hc, fun t hu hc => debit_of_none x hs hu hc⟩

/-! ### The balance -/

/-- What a debit of `u` does to an account that held `a`: it keeps B + E + C - O, and touches none of the records of money. -/
structure Balanced (u : Nat) (a b : Account) : Prop where
  balance : b.b + b.e + b.c + a.o = a.b + a.e + a.c + b.o
  charge : b.c = a.c + u
  inserted : b.inserted = a.inserted
  refunded : b.refunded = a.refunded
  held : b.held = a.held
  carryIn : b.carryIn = a.carryIn
  shortfall : b.shortfall = a.shortfall
  sat : b.sat = a.sat

theorem balanced_settingTest {u : Nat} {a : Account} (x : RatingContext) {s : State} (h : Balanced u a s.acct) :
    Balanced u a (settingTest x s).acct := by
  unfold settingTest
  split
  · exact ⟨h.balance, h.charge, h.inserted, h.refunded, h.held, h.carryIn, h.shortfall, h.sat⟩
  · exact h

theorem balanced_payFromBanked {u : Nat} {s : State} (hu : u ≤ s.acct.b) (hc : s.acct.c + u ≤ 999999) :
    Balanced u s.acct (payFromBanked u s).acct where
  balance := by simp [payFromBanked, Account.addCharge, moneyTop, satAdd_of_le hc]; omega
  charge := by simp [payFromBanked, Account.addCharge, moneyTop, satAdd_of_le hc]
  inserted := rfl
  refunded := rfl
  held := rfl
  carryIn := rfl
  shortfall := rfl
  sat := by simp [payFromBanked, Account.addCharge, overflows_of_le hc]

theorem balanced_enterGrace {u : Nat} (x : RatingContext) {s : State} (hu : s.acct.b < u) (ho : s.acct.o = 0)
    (hc : s.acct.c + u ≤ 999999) : Balanced u s.acct (enterGrace u x s).acct where
  balance := by simp [enterGrace, Account.addCharge, moneyTop, satAdd_of_le hc]; omega
  charge := by simp [enterGrace, Account.addCharge, moneyTop, satAdd_of_le hc]
  inserted := rfl
  refunded := rfl
  held := rfl
  carryIn := rfl
  shortfall := rfl
  sat := by simp [enterGrace, Account.addCharge, overflows_of_le hc]

/-- A committed coin moves its value from E to B, so that the balance is that of the state before it. -/
theorem balanced_of_collected {u v : Nat} {a b : Account} (hv : v ≤ a.e)
    (h : Balanced u { a with e := a.e - v, b := a.b + v } b) : Balanced u a b where
  balance := by have := h.balance; simp only at this; omega
  charge := h.charge
  inserted := h.inserted
  refunded := h.refunded
  held := h.held
  carryIn := h.carryIn
  shortfall := h.shortfall
  sat := h.sat

theorem balanced_debitLoop {u : Nat} (x : RatingContext) : ∀ (fuel : Nat) {s : State}, s.acct.o = 0 →
    creditSum s.coin.escrow ≤ s.acct.e → s.acct.c + u ≤ 999999 → Balanced u s.acct (debitLoop u x fuel s).acct := by
  intro fuel
  induction fuel with
  | zero =>
    intro s ho he hc
    unfold debitLoop
    split
    · exact balanced_payFromBanked ‹_› hc
    · exact balanced_enterGrace x (by omega) ho hc
  | succ fuel ih =>
    intro s ho he hc
    by_cases hu : u ≤ s.acct.b
    · rw [debitLoop_of_covered x hu]
      exact balanced_payFromBanked hu hc
    · have hu := Nat.not_le.mp hu
      rcases hr : collectRequest s with ⟨_ | v, t⟩
      · rw [debitLoop_of_none x hu hr]
        exact balanced_enterGrace x hu ho hc
      · rw [debitLoop_succ_of_some x hu hr]
        obtain ⟨q, hq, rfl⟩ := collectRequest_some hr
        have sums := (commitFirst_some hq).1
        exact balanced_of_collected (by omega : v ≤ s.acct.e)
          (ih (s := collected v q s) ho (by rw [collected_escrow, collected_acct]; simp only; omega) hc)

/-- In GRACE the charge is added to C and to O alike. -/
theorem balanced_debit_grace {u : Nat} (x : RatingContext) {s : State} (h : s.call.st = .grace) (hc : s.acct.c + u ≤ 999999)
    (ho : s.acct.o + u ≤ 999999) : Balanced u s.acct (debit u x s).acct := by
  rw [debit, if_pos h]
  exact
    { balance := by simp [Account.addCharge, Account.addOwed, moneyTop, satAdd_of_le hc, satAdd_of_le ho]; omega
      charge := by simp [Account.addCharge, Account.addOwed, moneyTop, satAdd_of_le hc]
      inserted := rfl
      refunded := rfl
      held := rfl
      carryIn := rfl
      shortfall := rfl
      sat := by simp [Account.addCharge, Account.addOwed, overflows_of_le hc, overflows_of_le ho] }

/-- Settles O25, by induction on the coins that the debit commits. -/
theorem debitKeepsTheBalance : Obligations.DebitKeepsTheBalance := by
  unfold Obligations.DebitKeepsTheBalance
  intro u x s hs he hc ho
  have h : Balanced u s.acct (debit u x s).acct := by
    rcases hs with ⟨connected, owed⟩ | grace
    · rw [debit_connected (by simp [connected])]
      exact balanced_settingTest x (balanced_debitLoop x _ owed he hc)
    · exact balanced_debit_grace x grace hc ho
  exact ⟨h.balance, h.charge, h.inserted, h.refunded, h.held, h.carryIn, h.shortfall, h.sat⟩

end Sys2Proof.Machine
end

section
/-!
PROOFS. Commands outside reset, and the moments at which charging happens: steps and pulses (O26), a credit coin (O27), answer
(O28); with the refresh of the pins and the PIP pattern (O10).
-/

namespace Sys2Proof.Machine

/-! ### A command outside reset -/

/-- Outside reset a command comes to its effect, and the pins follow. -/
theorem complete_running {s t : State} {f : State → State} (h : s.start.rstHeld = false) (e : f s = t) :
    complete (outOfReset s f) = .next (refreshPins t) := by rw [outOfReset_running h, e]; rfl

/-! ### Charging steps and pulses -/

theorem charging_iff (c : CallState) : c.charging = true ↔ c = .connected ∨ c = .grace := by
  simp [CallState.charging]

theorem exec_chargingStep {s : State} {x : RatingContext} {due : Nat} (h : s.start.rstHeld = false) (hx : s.rate.ctx = some x)
    (hd : s.rate.nextStep = some due) (hc : s.call.st.charging = true) :
    exec .chargingStep s = .next (refreshPins (unitStep due x (s.reach due))) := by
  simp only [exec, execChargingStep]
  exact complete_running h (by simp only [hd, hx, hc, if_true])

theorem exec_meterPulse_charged {s : State} {x : RatingContext} (h : s.start.rstHeld = false) (hx : s.rate.ctx = some x)
    (passes : signalsPass s.line = true) (hm : x.mode = .meter) (hu : x.uncharged = false) (hc : s.call.st.charging = true) :
    exec .meterPulse s = .next (refreshPins (chargePulse x s)) := by
  have ringing : s.call.st ≠ .ringing := by rcases (charging_iff _).mp hc with hc | hc <;> simp [hc]
  simp only [exec, execMeterPulse]
  exact complete_running h (by simp only [hx, passes, hm, meterPulse, ringing, hc, hu, and_self, if_true, if_false])

theorem exec_meterPulse_local {s : State} {x : RatingContext} (h : s.start.rstHeld = false) (hx : s.rate.ctx = some x)
    (hm : x.mode = .localBand) : exec .meterPulse s = .next (refreshPins s) := by
  simp only [exec, execMeterPulse]
  exact complete_running h (by simp only [hx, hm, reduceCtorEq, and_false, if_false])

/-- Settles O26. -/
theorem stepsAndPulsesAreCharged : Obligations.StepsAndPulsesAreCharged := by
  unfold Obligations.StepsAndPulsesAreCharged
  intro s x h hx
  refine ⟨fun due hd hc => exec_chargingStep h hx hd ((charging_iff _).mpr hc), fun ho hl hm hu hc => ?_,
    exec_meterPulse_local h hx⟩
  exact exec_meterPulse_charged h hx (by simp [signalsPass, ho, hl]) hm hu ((charging_iff _).mpr hc)

/-! ### Credit coins -/

theorem timesBySum_eq (u : Nat) : ∀ n, timesBySum u n = u * n
  | 0 => rfl
  | n + 1 => by rw [timesBySum, timesBySum_eq u n, Nat.mul_succ]

/-- The clearing test clears the low-credit flag of a charged call whose available credit reaches the threshold. -/
def clears (s : State) : Prop := ∃ x, s.rate.ctx = some x ∧ x.uncharged = false ∧ threshold x s.clock ≤ s.acct.available

theorem clearingTest_of_clears {s : State} (h : clears s) :
    clearingTest s = s.onAcct fun a => { a with lowCredit := false } := by
  obtain ⟨x, hx, charged, reached⟩ := h
  simp [clearingTest, hx, charged, reached]

theorem clearingTest_of_not {s : State} (h : ¬ clears s) : clearingTest s = s := by
  unfold clearingTest
  split
  · rfl
  · next x hx =>
    refine if_neg fun k => h ⟨x, hx, ?_⟩
    simpa using k

theorem graceCoin_of_none {s t : State} (h : collectRequest s = (none, t)) : graceCoin s = s := by simp only [graceCoin, h]

/-- A coin that does not cover what is owed lessens it. -/
theorem graceCoin_of_short {s t : State} {v : Nat} (h : collectRequest s = (some v, t)) (hv : v < s.acct.o) :
    graceCoin s = t.onAcct fun a => { a with o := s.acct.o - v, b := a.b - v } := by
  obtain ⟨q, _, rfl⟩ := collectRequest_some h
  have owed : ¬ s.acct.o - v = 0 := by omega
  simp [graceCoin, h, Nat.min_eq_left hv.le, owed]
  rfl

/-- The state in which a coin has paid all that is owed. -/
def graceOver (s t : State) : State :=
  ((t.onAcct fun a => { a with o := 0, b := a.b - s.acct.o }).onRate fun r => { r with graceEnd := none }).onCall
    fun c => { c with st := .connected }

theorem graceCoin_of_covered {s t : State} {v : Nat} (h : collectRequest s = (some v, t)) (hv : s.acct.o ≤ v) :
    graceCoin s = clearingTest (graceOver s t) := by
  obtain ⟨q, _, rfl⟩ := collectRequest_some h
  simp [graceCoin, h, Nat.min_eq_right hv, graceOver, State.onAcct, State.onRate, State.onCall]

theorem restartHold_of_unflagged {s : State} (h : s.call.holdFlag = false) : restartHold s =
    s.onCall fun c => { c with holdEnd := some (s.now + 1000 * s.req.cfg.offhookHold) } := by
  simp [restartHold, State.onCall, h]

theorem restartHold_of_flagged {s : State} (h : s.call.holdFlag = true) :
    restartHold s = s.onCall fun c => { c with holdEnd := none } := by
  simp [restartHold, State.onCall, h]

theorem afterCredit_collect {s : State} (h : s.call.st = .collect) :
    afterCredit s = if s.num.buffer = [] ∧ s.call.holdFlag = false then restartHold s else s := by simp only [afterCredit, h]

theorem afterCredit_awaitDeposit {s : State} (h : s.call.st = .awaitDeposit) :
    afterCredit s = if s.call.deposit ≤ s.acct.available then dialRecorded s else s := by simp only [afterCredit, h]

theorem afterCredit_connected {s : State} (h : s.call.st = .connected) : afterCredit s = clearingTest s := by
  simp only [afterCredit, h]

theorem afterCredit_grace {s : State} (h : s.call.st = .grace) : afterCredit s = graceCoin s := by simp only [afterCredit, h]

/-- Settles O27, by the state of the call. -/
theorem creditCoinByCallState : Obligations.CreditCoinByCallState := by
  unfold Obligations.CreditCoinByCallState
  refine ⟨fun s t v grace => ⟨fun h => ?_, fun h => ⟨fun hv => ?_, fun hv => ?_⟩⟩, fun s => ⟨fun collect => ?_,
    fun waits => ?_, fun connected => ?_, fun h1 h2 h3 h4 => ?_, rfl⟩, fun x c => ⟨timesBySum_eq _ _, fun hm => ?_⟩⟩
  · rw [afterCredit_grace grace, graceCoin_of_none h]
  · rw [afterCredit_grace grace, graceCoin_of_short h hv]
    obtain ⟨q, _, rfl⟩ := collectRequest_some h
    rfl
  · rw [afterCredit_grace grace, graceCoin_of_covered h hv]
    obtain ⟨q, _, rfl⟩ := collectRequest_some h
    intro y
    split
    · exact clearingTest_of_clears ‹_›
    · exact clearingTest_of_not ‹_›
  · rw [afterCredit_collect collect]
    exact ⟨fun empty flag => (if_pos ⟨empty, flag⟩).trans (restartHold_of_unflagged flag),
      fun k => if_neg (by rcases k with k | k <;> simp [k])⟩
  · rw [afterCredit_awaitDeposit waits]
    exact ⟨fun k => if_pos k, fun k => if_neg (by omega)⟩
  · rw [afterCredit_connected connected]
    exact ⟨clearingTest_of_clears, clearingTest_of_not⟩
  · unfold afterCredit
    split <;> first | rfl | contradiction
  · simp only [unitNow, hm]

/-! ### Answer -/

/-- The state at answer, before anything is charged. -/
def answered (s : State) : State :=
  (s.onCall fun c =>
    { c with st := .connected, answerEnd := none, assumedEnd := none, answered := true, answeredAt := some s.now }).onLine
      fun l => { l with st := if l.st = .awaitAnswer then .answered else l.st }

/-- The record of an answer: a checkpoint with PFW asserted, and else the OPEN record. -/
def answerRecord (u : State) : State :=
  if u.pfw then takeCheckpoint u else handCallRecord .openRec .none 0 (openFigures u.acct) u

theorem takeAnswer_eq (kind : AnswerKind) (s : State) : takeAnswer kind s = answerRecord (startCharging kind (answered s)) := rfl

theorem startCharging_none {kind : AnswerKind} {s : State} (h : s.rate.ctx = none) : startCharging kind s = s := by
  simp only [startCharging, h]

theorem startCharging_uncharged {kind : AnswerKind} {s : State} {x : RatingContext} (h : s.rate.ctx = some x)
    (hu : x.uncharged = true) : startCharging kind s = s := by
  simp only [startCharging, h, hu, if_true]

theorem startCharging_meter {kind : AnswerKind} {s : State} {x : RatingContext} (h : s.rate.ctx = some x)
    (hu : x.uncharged = false) (hm : x.mode = .meter) : startCharging kind s =
      if kind = .pulse then chargePulse x (debit x.initial x s) else debit x.initial x s := by
  simp only [startCharging, h, hu, hm, chargeInitial, Bool.false_eq_true, if_false]

theorem startCharging_local {kind : AnswerKind} {s : State} {x : RatingContext} (h : s.rate.ctx = some x)
    (hu : x.uncharged = false) (hm : x.mode = .localBand) : startCharging kind s =
      if x.delay = 0 then
        (chargeStep x (charge x.initial x s)).onRate fun r => { r with nextStep := some (s.now + 1000 * x.stepLen) }
      else (charge x.initial x s).onRate fun r => { r with nextStep := some (s.now + 1000 * x.delay) } := by
  simp only [startCharging, h, hu, hm, chargeInitial, Bool.false_eq_true, if_false]

/-- What no charge changes: the call's data but its state, the time base and PFW. -/
structure ChargeFrame (s t : State) : Prop where
  now : t.now = s.now
  pfw : t.pfw = s.pfw
  seq : t.call.seq = s.call.seq
  answeredAt : t.call.answeredAt = s.call.answeredAt

theorem chargeFrame_debitLoop (u : Nat) (x : RatingContext) : ∀ (fuel : Nat) (s : State),
    ChargeFrame s (debitLoop u x fuel s)
  | 0, s => by unfold debitLoop; split <;> exact ⟨rfl, rfl, rfl, rfl⟩
  | fuel + 1, s => by
    by_cases hu : u ≤ s.acct.b
    · rw [debitLoop_of_covered x hu]
      exact ⟨rfl, rfl, rfl, rfl⟩
    · have hu := Nat.not_le.mp hu
      rcases hr : collectRequest s with ⟨_ | v, t⟩
      · rw [debitLoop_of_none x hu hr]
        exact ⟨rfl, rfl, rfl, rfl⟩
      · rw [debitLoop_succ_of_some x hu hr]
        obtain ⟨q, _, rfl⟩ := collectRequest_some hr
        obtain ⟨h1, h2, h3, h4⟩ := chargeFrame_debitLoop u x fuel (collected v q s)
        exact ⟨h1, h2, h3, h4⟩

theorem chargeFrame_debit (u : Nat) (x : RatingContext) (s : State) : ChargeFrame s (debit u x s) := by
  unfold debit settingTest
  split
  · exact ⟨rfl, rfl, rfl, rfl⟩
  · obtain ⟨h1, h2, h3, h4⟩ := chargeFrame_debitLoop u x s.coin.escrow.length s
    split <;> exact ⟨h1, h2, h3, h4⟩

theorem chargeFrame_charge (u : Nat) (x : RatingContext) (s : State) : ChargeFrame s (charge u x s) := by
  unfold charge
  split
  · exact ⟨rfl, rfl, rfl, rfl⟩
  · exact chargeFrame_debit u x s

theorem ChargeFrame.trans {s t u : State} (h : ChargeFrame s t) (k : ChargeFrame t u) : ChargeFrame s u :=
  ⟨k.now.trans h.now, k.pfw.trans h.pfw, k.seq.trans h.seq, k.answeredAt.trans h.answeredAt⟩

theorem chargeFrame_chargeStep (x : RatingContext) (s : State) : ChargeFrame s (chargeStep x s) :=
  (chargeFrame_charge _ x s).trans ⟨rfl, rfl, rfl, rfl⟩

theorem chargeFrame_startCharging (kind : AnswerKind) (s : State) : ChargeFrame s (startCharging kind s) := by
  cases hx : s.rate.ctx with
  | none => rw [startCharging_none hx]; exact ⟨rfl, rfl, rfl, rfl⟩
  | some x =>
    cases hu : x.uncharged with
    | true => rw [startCharging_uncharged hx hu]; exact ⟨rfl, rfl, rfl, rfl⟩
    | false =>
      cases hm : x.mode with
      | meter =>
        rw [startCharging_meter hx hu hm]
        have paid := chargeFrame_debit x.initial x s
        split
        · exact paid.trans ((chargeFrame_charge _ x _).trans ⟨rfl, rfl, rfl, rfl⟩)
        · exact paid
      | localBand =>
        rw [startCharging_local hx hu hm]
        have paid := chargeFrame_charge x.initial x s
        split
        · exact paid.trans ((chargeFrame_chargeStep x _).trans ⟨rfl, rfl, rfl, rfl⟩)
        · exact paid.trans ⟨rfl, rfl, rfl, rfl⟩

/-- The record of an answer, written out: the call has just been answered, so its duration is 0. -/
theorem answerRecord_eq {s u : State} (h : ChargeFrame (answered s) u) : answerRecord u =
    match s.call.seq with
    | none => u
    | some q =>
      if s.pfw = true then
        handRecord ⟨q, .checkpoint, callRecordBody q .checkpoint .powerFail u.call u.rate.ctx 0 (checkpointFigures u.acct)⟩ u
      else handRecord ⟨q, .openRec, callRecordBody q .openRec .none u.call u.rate.ctx 0 (openFigures u.acct)⟩ u := by
  have seq : u.call.seq = s.call.seq := h.seq
  have pfw : u.pfw = s.pfw := h.pfw
  have duration : durationNow u = 0 := by
    have at_ : u.call.answeredAt = some s.now := h.answeredAt
    have now : u.now = s.now := h.now
    simp [durationNow, at_, now, seconds]
  unfold answerRecord takeCheckpoint handCallRecord
  rw [duration, seq, pfw]
  cases s.call.seq <;> cases s.pfw <;> rfl

/-- Settles O28. -/
theorem answerStartsCharging : Obligations.AnswerStartsCharging := by
  unfold Obligations.AnswerStartsCharging
  intro kind s t counted opened checkpoint record
  have recorded : ∀ u, startCharging kind t = u → takeAnswer kind s = record u := by
    rintro _ rfl
    exact answerRecord_eq (chargeFrame_startCharging kind (answered s))
  refine ⟨fun hx => recorded _ (startCharging_none hx), fun x hx => ?_⟩
  intro paid
  have paid_local : x.mode = .localBand → paid = charge x.initial x t := fun hm => by simp only [paid, hm, true_and]; rfl
  have paid_meter : x.mode = .meter → paid = debit x.initial x t := fun hm => by simp [paid, hm]
  refine ⟨fun hu => recorded _ (startCharging_uncharged hx hu), fun hu hm hk => recorded _ ?_, fun hu hm hk => recorded _ ?_,
    fun hu hm hd => recorded _ ?_, fun hu hm hd => ?_⟩
  · rw [startCharging_meter (s := t) hx hu hm, if_pos hk, ← paid_meter hm]; rfl
  · rw [startCharging_meter (s := t) hx hu hm, if_neg hk, ← paid_meter hm]
  · rw [startCharging_local (s := t) hx hu hm, if_neg (by omega), ← paid_local hm]; rfl
  · intro one
    refine recorded _ ?_
    rw [startCharging_local (s := t) hx hu hm, if_pos hd, ← paid_local hm]; rfl

/-! ### The pins and the PIP pattern -/

theorem refreshPip_of_off {s : State} (h : pipModeNow s = .off) : refreshPip s = s.onPipGen fun _ => PipGen.zero := if_pos h

theorem refreshPip_of_same {s : State} (h : pipModeNow s ≠ .off) (e : pipModeNow s = s.pipGen.mode) : refreshPip s = s := by
  simp only [refreshPip, if_neg h, if_pos e]

theorem refreshPip_of_begun {s : State} (h : pipModeNow s ≠ .off) (e : pipModeNow s ≠ s.pipGen.mode) :
    refreshPip s = s.onPipGen fun _ => ⟨pipModeNow s, true, some (s.now + 200)⟩ := by
  simp only [refreshPip, if_neg h, if_neg e]

/-- Settles O10. -/
theorem refreshAndPipPattern : Obligations.RefreshAndPipPattern := by
  unfold Obligations.RefreshAndPipPattern
  refine ⟨fun s => ⟨(refreshPip s).pipGen, pipRule (refreshPip s), ?_, fun h e => ?_, fun h e => ?_, fun h => ?_⟩,
    fun s d h hd => ⟨fun high => ?_, fun low => ?_⟩⟩
  · obtain ⟨g, e⟩ := refreshPip_frame s
    simp only [refreshPins, e]
    rfl
  · rw [refreshPip_of_same h e]
  · rw [refreshPip_of_begun h e]; rfl
  · rw [refreshPip_of_off h]; rfl
  · simp only [exec, execPipPatternTimer]
    refine complete_running h ?_
    simp only [hd, onExpiry_some, State.onPipGen, State.reach_pipGen, high, if_true]
    cases hm : s.pipGen.mode <;> simp [pipLow, State.reach]
  · simp only [exec, execPipPatternTimer]
    refine complete_running h ?_
    simp only [hd, onExpiry_some, State.onPipGen, State.reach_pipGen, low, Bool.false_eq_true, if_false]
    rfl

end Sys2Proof.Machine
end

section
/-!
PROOFS. The number: its analysis after each digit (O30). The call: the release of the line, the entry into CLEARING (O34), the
follow-on and the layout of a call record (O36).
-/

namespace Sys2Proof.Machine

/-! ### Number analysis -/

theorem isEmergency_iff {list : List (List Nat)} {b : List Nat} : isEmergency list b = true ↔ b ∈ list := by
  simp [isEmergency]

theorem Route.matches_iff {b : List Nat} {r : Route} : r.matches b = true ↔ r.digits <+: b := List.isPrefixOf_iff_prefix

theorem properPrefix_iff {b ds : List Nat} : properPrefix b ds = true ↔ b <+: ds ∧ b.length < ds.length := by
  simp [properPrefix]

theorem longerPossible_iff {routes : List Route} {b : List Nat} :
    longerPossible routes b = true ↔ ∃ r ∈ routes, b <+: r.digits ∧ b.length < r.digits.length := by
  simp [longerPossible, properPrefix_iff]

theorem canReach_iff {routes : List Route} {list : List (List Nat)} {b : List Nat} : canReach routes list b = true ↔
    ((∃ r ∈ routes, r.digits <+: b) ∨ ∃ r ∈ routes, b <+: r.digits ∧ b.length < r.digits.length) ∨
      ∃ e ∈ list, b <+: e ∧ b.length < e.length := by
  simp only [canReach, Bool.or_eq_true, List.any_eq_true, longerPossible_iff, properPrefix_iff, Route.matches_iff]

/-- The candidate after entry `r` has been looked at: the matching entry with the longer prefix. -/
def betterRoute (b : List Nat) (best : Option Route) (r : Route) : Option Route :=
  if r.matches b then
    match best with
    | none => some r
    | some x => if x.digits.length < r.digits.length then some r else some x
  else best

theorem candidate_eq_foldl (routes : List Route) (b : List Nat) : candidate routes b = routes.foldl (betterRoute b) none := rfl

theorem betterRoute_of_not {b : List Nat} {r : Route} (h : ¬ r.digits <+: b) (best : Option Route) :
    betterRoute b best r = best := if_neg (by rwa [Route.matches_iff])

theorem candidate_none {routes : List Route} {b : List Nat} (h : ∀ r ∈ routes, ¬ r.digits <+: b) : candidate routes b = none := by
  rw [candidate_eq_foldl]
  induction routes with
  | nil => rfl
  | cons r rest ih =>
    rw [List.foldl_cons, betterRoute_of_not (h r List.mem_cons_self)]
    exact ih fun x hx => h x (List.mem_cons_of_mem _ hx)

/-- An entry that matches, with a longer prefix than every other that does, is the one found: it stays once met, and is met where
it stands in the list. -/
theorem foldl_betterRoute_longest {b : List Nat} {r : Route} (hr : r.digits <+: b) : ∀ (l : List Route) (best : Option Route),
    (∀ x ∈ l, x ≠ r → x.digits <+: b → x.digits.length < r.digits.length) →
    best = some r ∨ (r ∈ l ∧ ∀ x, best = some x → x.digits.length < r.digits.length ∨ x = r) →
    l.foldl (betterRoute b) best = some r
  | [], best, _, h => h.resolve_right fun k => List.not_mem_nil k.1
  | x :: rest, best, hl, h => by
    refine foldl_betterRoute_longest hr rest (betterRoute b best x) (fun y hy => hl y (List.mem_cons_of_mem _ hy)) ?_
    have longer := hl x List.mem_cons_self
    by_cases hx : x.digits <+: b
    · have matched : x.matches b = true := Route.matches_iff.mpr hx
      by_cases e : x = r
      · subst e
        left
        cases best with
        | none => simp [betterRoute, matched]
        | some y =>
          have hy : y.digits.length < x.digits.length ∨ y = x := by
            rcases h with h | h
            · exact .inr (Option.some.inj h)
            · exact h.2 y rfl
          rcases hy with hy | rfl
          · simp [betterRoute, matched, hy]
          · simp [betterRoute, matched]
      · have shorter := longer e hx
        rcases h with rfl | ⟨hmem, hbest⟩
        · left
          simp [betterRoute, matched, Nat.not_lt.mpr shorter.le]
        · refine .inr ⟨(List.mem_cons.mp hmem).resolve_left (Ne.symm e), fun y hy => ?_⟩
          cases best with
          | none =>
            simp only [betterRoute, matched, if_true, Option.some.injEq] at hy
            exact .inl (hy ▸ shorter)
          | some z =>
            simp only [betterRoute, matched, if_true] at hy
            split at hy <;> cases hy
            · exact .inl shorter
            · exact hbest _ rfl
    · rw [betterRoute_of_not hx]
      have other : r ≠ x := fun e => hx (e ▸ hr)
      exact h.imp id fun ⟨hmem, hbest⟩ => ⟨(List.mem_cons.mp hmem).resolve_left other, hbest⟩

theorem candidate_longest {routes : List Route} {b : List Nat} {r : Route} (hmem : r ∈ routes) (hr : r.digits <+: b)
    (h : ∀ x ∈ routes, x ≠ r → x.digits <+: b → x.digits.length < r.digits.length) : candidate routes b = some r :=
  foldl_betterRoute_longest hr routes none h (.inr ⟨hmem, nofun⟩)

theorem completeNumber_of_band {s : State} {r : Route} {x : Band} (h : s.tariff.shadow.bands[r.band]? = some x) :
    completeNumber r s = routeBand r.band x s := by simp only [completeNumber, h]

theorem analyse_emergency {s : State} (h : s.num.buffer ∈ s.req.cfg.emergency) : analyse s = routeEmergency s :=
  if_pos (isEmergency_iff.mpr h)

theorem analyse_lost {s : State} (h : s.num.buffer ∉ s.req.cfg.emergency)
    (k : canReach s.tariff.shadow.routes s.req.cfg.emergency s.num.buffer = false) : analyse s = refuseNumber .noRoute s := by
  simp [analyse, isEmergency_iff, h, k]

theorem analyse_none {s : State} (h : s.num.buffer ∉ s.req.cfg.emergency)
    (k : canReach s.tariff.shadow.routes s.req.cfg.emergency s.num.buffer = true)
    (c : candidate s.tariff.shadow.routes s.num.buffer = none) : analyse s = s := by
  simp [analyse, isEmergency_iff, h, k, c]

theorem analyse_some {s : State} {r : Route} (h : s.num.buffer ∉ s.req.cfg.emergency)
    (k : canReach s.tariff.shadow.routes s.req.cfg.emergency s.num.buffer = true)
    (c : candidate s.tariff.shadow.routes s.num.buffer = some r) :
    analyse s = if s.num.buffer.length = r.maxLen then completeNumber r s else s := by
  simp [analyse, isEmergency_iff, h, k, c]

/-- Settles O30, with the candidate found by induction on the entries. -/
theorem numberAnalysis : Obligations.NumberAnalysis := by
  unfold Obligations.NumberAnalysis
  refine ⟨fun s => ⟨analyse_emergency, fun h => ⟨fun hr he => analyse_lost h ?_, fun hr hl => ?_, fun r hmem hr hx => ?_⟩⟩,
    fun s r x => completeNumber_of_band⟩
  · rw [Bool.eq_false_iff, Ne, canReach_iff]
    rintro ((⟨r, hm, k⟩ | ⟨r, hm, k⟩) | ⟨e, hm, k⟩)
    · exact (hr r hm).1 k
    · exact (hr r hm).2 k
    · exact he e hm k
  · exact analyse_none h (canReach_iff.mpr (hl.imp .inr id)) (candidate_none hr)
  · exact analyse_some h (canReach_iff.mpr (.inl (.inl ⟨r, hmem, hr⟩))) (candidate_longest hmem hr hx)

/-! ### The release of the line -/

theorem releaseLine_of_other {w : LineOwner} {s : State} (h : s.line.owner = .none ∨ s.line.owner ≠ w) : releaseLine w s = s :=
  if_pos h

theorem releaseLine_of_owner {w : LineOwner} {s : State} (hw : w ≠ .none) (h : s.line.owner = w)
    (hc : w ≠ .report ∨ s.call.waiting = false) : releaseLine w s = dropLine s := by
  subst h
  rcases hc with hc | hc <;> simp [releaseLine, hw, hc]

theorem releaseLine_call {s : State} (h : s.line.owner = .call) : releaseLine .call s = dropLine s :=
  releaseLine_of_owner (by simp) h (.inl (by simp))

theorem releaseLine_waiting {s : State} (h : s.line.owner = .report) (hc : s.call.waiting = true) :
    releaseLine .report s = beginSeizing (dropLine s) := by
  simp [releaseLine, h, hc]

/-! ### The entry into CLEARING -/

theorem stopTimers_eq (s : State) : stopTimers s = { s with
    call := { s.call with
      duration := if s.call.st = .connected ∨ s.call.st = .grace then durationNow s else s.call.duration
      grantEnd := none, depositEnd := none, answerEnd := none, assumedEnd := none, holdEnd := none, followEnd := none
      holdFlag := false }
    num := { s.num with silenceEnd := none } } := by
  simp only [stopTimers, charging_iff]
  rfl

theorem anyCredit_iff {q : List Escrow} : anyCredit q = true ↔ ∃ x ∈ q, x.standing = .credit := by simp [anyCredit]

theorem requestReturnAll_frozen {s : State} (h : frozen s = true) : requestReturnAll s = finishFrozen s := if_pos h

theorem requestReturnAll_credit {s : State} (h : frozen s = false) (k : ∃ x ∈ s.coin.escrow, x.standing = .credit) :
    requestReturnAll s = s.onCoin fun c => { c with escrow := markReturns c.escrow, returnAll := some 0 } := by
  simp only [requestReturnAll, h, Bool.false_eq_true, if_false, anyCredit_iff.mpr k, if_true]

theorem requestReturnAll_empty {s : State} (h : frozen s = false) (k : ∀ x ∈ s.coin.escrow, x.standing ≠ .credit) :
    requestReturnAll s = finishReturnAll s := by
  have none_left : anyCredit s.coin.escrow = false := by simpa [anyCredit] using k
  simp only [requestReturnAll, h, none_left, Bool.false_eq_true, if_false]

/-- The state in which the return-all of a clearing is requested. -/
def clearingBegun (cause : EndCause) (s : State) : State :=
  forfeit (endCharging (withdrawCall ((stopTimers s).onCall fun c => { c with st := .clearing, cause := cause })))

theorem enterClearing_eq (cause : EndCause) (s : State) : enterClearing cause s = requestReturnAll (clearingBegun cause s) := rfl

theorem withdrawCall_owner {s : State} (h : s.line.owner = .call) :
    withdrawCall s = dropLine (s.onLine fun l => { l with callReq := false }) := releaseLine_call h

theorem withdrawCall_other {s : State} (h : s.line.owner ≠ .call) :
    withdrawCall s = s.onLine fun l => { l with callReq := false } := releaseLine_of_other (.inr h)

/-- The money closed and the timers stopped, as `clearingBegun` leaves them, with this line and these pins. -/
def clearedWith (cause : EndCause) (l : Line) (p : Pins) (s : State) : State :=
  { s with
    call := { s.call with
      st := .clearing, cause := cause
      duration := if s.call.st = .connected ∨ s.call.st = .grace then durationNow s else s.call.duration
      grantEnd := none, depositEnd := none, answerEnd := none, assumedEnd := none, holdEnd := none, followEnd := none
      holdFlag := false }
    num := { s.num with silenceEnd := none }
    rate := { s.rate with nextStep := none, graceEnd := none }
    acct := { s.acct with
      forfeited := s.acct.b, b := 0, shortfall := satAdd 999999 s.acct.shortfall s.acct.o, o := 0, lowCredit := false
      sat := s.acct.sat || decide (999999 < s.acct.shortfall + s.acct.o) }
    line := l
    pins := p }

theorem clearingBegun_owner (cause : EndCause) {s : State} (h : s.line.owner = .call) : clearingBegun cause s =
    clearedWith cause { s.line with
      callReq := false, owner := .none, st := .guarding, queue := [], phase := .idle, phaseEnd := none, breaks := 0
      loopSuspended := false, reversal := false, dialToneEnd := none, guardEnd := some (s.now + 1000) }
      { s.pins with seize := false, toneOn := false, td := 0 } s := by
  rw [clearingBegun, withdrawCall_owner (by exact h)]
  simp only [forfeit, endCharging, dropLine, stopTimers, State.onLine, State.onPins, State.onAcct, State.onRate, State.onCall,
    State.onNum, charging_iff]
  rfl

theorem clearingBegun_other (cause : EndCause) {s : State} (h : s.line.owner ≠ .call) :
    clearingBegun cause s = clearedWith cause { s.line with callReq := false } s.pins s := by
  rw [clearingBegun, withdrawCall_other (by exact h)]
  simp only [forfeit, endCharging, stopTimers, State.onLine, State.onAcct, State.onRate, State.onCall, State.onNum, charging_iff]
  rfl

/-- Settles O34: the line released or the request withdrawn, and then the return-all. -/
theorem clearingClosesTheMoney : Obligations.ClearingClosesTheMoney := by
  unfold Obligations.ClearingClosesTheMoney
  intro cause s y
  have begun : clearingBegun cause s = y := by
    by_cases h : s.line.owner = .call
    · rw [clearingBegun_owner cause h]
      simp only [y, if_pos h, clearedWith]
    · rw [clearingBegun_other cause h]
      simp only [y, if_neg h, clearedWith]
  rw [enterClearing_eq, begun]
  exact ⟨requestReturnAll_credit (s := y), requestReturnAll_empty (s := y), requestReturnAll_frozen (s := y)⟩

/-! ### Records handed over -/

/-- A record that is handed over reaches the queue or the held records, and nothing else. -/
theorem handRecord_frame (r : CallRecord) (s : State) :
    ∃ w l, handRecord r s = { s with writer := w, call := { s.call with heldRecords := l } } := by
  unfold handRecord joinRecord
  split
  · exact ⟨_, _, rfl⟩
  · split
    · exact ⟨_, _, rfl⟩
    · split
      · split <;> exact ⟨_, _, rfl⟩
      · exact ⟨_, _, rfl⟩

/-- Where a record goes depends on the queue and the held records alone. -/
theorem handRecord_congr (r : CallRecord) {s t : State} (hw : s.writer = t.writer)
    (hl : s.call.heldRecords = t.call.heldRecords) :
    (handRecord r s).writer = (handRecord r t).writer ∧
      (handRecord r s).call.heldRecords = (handRecord r t).call.heldRecords := by
  unfold handRecord hasRoom joinRecord pushItem
  rw [hw, hl]
  split
  · exact ⟨by simp [hw], hl⟩
  · split
    · exact ⟨hw, by simp [hl]⟩
    · split
      · split <;> exact ⟨by simp [hw], hl⟩
      · exact ⟨hw, by simp [hl]⟩

theorem handCallRecord_none {kind : RecordKind} {cause : EndCause} {d : Nat} {x : Figures} {s : State} (h : s.call.seq = none) :
    handCallRecord kind cause d x s = s := by simp only [handCallRecord, h]

theorem handCallRecord_some {kind : RecordKind} {cause : EndCause} {d : Nat} {x : Figures} {s : State} {q : Nat}
    (h : s.call.seq = some q) : handCallRecord kind cause d x s =
      handRecord ⟨q, kind, callRecordBody q kind cause s.call s.rate.ctx d x⟩ s := by simp only [handCallRecord, h]

theorem handCallRecord_frame (kind : RecordKind) (cause : EndCause) (d : Nat) (x : Figures) (s : State) :
    ∃ w l, handCallRecord kind cause d x s = { s with writer := w, call := { s.call with heldRecords := l } } := by
  unfold handCallRecord
  split
  · exact ⟨_, _, rfl⟩
  · exact handRecord_frame _ _

/-! ### The follow-on -/

/-- A follow-on's state as its record is handed over. -/
def followOnBegun (s : State) : State := endCharging (stopTimers s)

/-- A follow-on's state with its record handed over. -/
def followOnRecorded (s : State) : State :=
  (handCallRecord .closed .followOn (followOnBegun s).call.duration (followOnFigures (followOnBegun s).acct)
    (followOnBegun s)).onCall fun c => { c with lastCause := .followOn }

theorem followOnRecorded_frame (s : State) : ∃ w l, followOnRecorded s = { followOnBegun s with
    writer := w, call := { (followOnBegun s).call with heldRecords := l, lastCause := .followOn } } := by
  obtain ⟨w, l, e⟩ := handCallRecord_frame .closed .followOn (followOnBegun s).call.duration
    (followOnFigures (followOnBegun s).acct) (followOnBegun s)
  exact ⟨w, l, by rw [followOnRecorded, e]; rfl⟩

theorem lineGrant_of_not_released {s : State} (h : s.line.st ≠ .released) : lineGrant s = s := if_neg fun k => h k.1

/-- A follow-on: charging ends, the record is handed over, the line is dropped and asked for again by the new call. -/
theorem takeFollowOn_eq {s : State} (h : s.line.owner = .call) :
    takeFollowOn s = enterSeizing true (handOverAccount (dropLine (followOnRecorded s))) := by
  have owner : (followOnRecorded s).line.owner = .call := by
    obtain ⟨w, l, e⟩ := followOnRecorded_frame s
    rw [e]
    exact h
  have e : takeFollowOn s =
    lineGrant (enterSeizing true (handOverAccount (releaseLine .call (followOnRecorded s)))) := rfl
  rw [e, releaseLine_call owner]
  exact lineGrant_of_not_released (by simp [enterSeizing, handOverAccount, dropLine])

theorem followOnBegun_duration (s : State) : (followOnBegun s).call.duration =
    if s.call.st = .connected ∨ s.call.st = .grace then durationNow s else s.call.duration := by
  simp only [followOnBegun, stopTimers_eq]
  rfl

/-! ### Slices of a record -/

theorem drop_past {l m : List Byte} {i : Nat} (h : l.length ≤ i) : (l ++ m).drop i = m.drop (i - l.length) := by
  rw [List.drop_append, List.drop_of_length_le h, List.nil_append]

/-- A body shorter than its page is filled with zero bytes. -/
theorem fit_of_le {n : Nat} {l : List Byte} (h : l.length ≤ n) : fit n l = l ++ List.replicate (n - l.length) 0 := by
  rw [fit, List.take_append, List.take_of_length_le h, List.take_replicate, Nat.min_eq_left (Nat.sub_le ..)]

@[simp] theorem fit_length (n : Nat) (l : List Byte) : (fit n l).length = n := by simp [fit]

@[simp] theorem w16_length (n : Nat) : (w16 n).length = 2 := by simp [w16]

@[simp] theorem w24_length (n : Nat) : (w24 n).length = 3 := by simp [w24]

@[simp] theorem w32_length (n : Nat) : (w32 n).length = 4 := by simp [w32]

@[simp] theorem money6_length (n : Nat) : (money6 n).length = 3 := by simp [money6]

@[simp] theorem money8_length (n : Nat) : (money8 n).length = 4 := by simp [money8]

@[simp] theorem stampBytes_length (x : Stamp) : (stampBytes x).length = 5 := by simp [stampBytes]

@[simp] theorem packCodes_length : ∀ (n : Nat) (l : List Nat), (packCodes l n).length = n
  | 0, _ => rfl
  | n + 1, l => by rw [packCodes, List.length_cons, packCodes_length n]

/-! ### The layout of a call record -/

theorem packCodes_getElem? : ∀ {n : Nat} (l : List Nat) (i : Nat), i < n →
    (packCodes l n)[i]? = some (b8 (l.getD (2 * i) 15 * 16 + l.getD (2 * i + 1) 15))
  | 0, _, _, h => absurd h (Nat.not_lt_zero _)
  | n + 1, l, 0, _ => by
    rw [packCodes, List.getElem?_cons_zero]
    rcases l with _ | ⟨a, _ | ⟨b, l⟩⟩ <;> rfl
  | n + 1, l, i + 1, h => by
    rw [packCodes, List.getElem?_cons_succ, packCodes_getElem? l.tail.tail i (Nat.lt_of_succ_lt_succ h)]
    rcases l with _ | ⟨a, _ | ⟨b, l⟩⟩ <;> rfl

/-- One byte cut out of a list. -/
theorem take_one_drop {α : Type} {l : List α} {i : Nat} {a : α} (h : l[i]? = some a) : (l.drop i).take 1 = [a] := by
  rw [List.take_one, List.head?_drop, h]
  rfl

/-- A call record's parts in their order; the five bytes behind them that no item has are 0. -/
theorem callRecordBody_parts (q : Nat) (kind : RecordKind) (cause : EndCause) (c : CallControl) (ctx : Option RatingContext)
    (dur : Nat) (x : Figures) : callRecordBody q kind cause c ctx dur x =
      w16 q ++ ([b8 kind.code, b8 cause.code, b8 c.kind.code, b8 ((ctx.map (·.bank.code)).getD 0)] ++
      (w16 ((ctx.map (·.version)).getD 0) ++ ([b8 ((ctx.bind (·.band)).getD 0), b8 c.number.length] ++
      (packCodes c.number 10 ++ ([b8 (flagBit c.followOn 1 + flagBit c.answered 2 + flagBit c.dialTime.isSet 4 +
        flagBit x.sat 8)] ++ (stampBytes c.dialTime ++ (w16 dur ++ (money6 x.carryIn ++ (money6 x.inserted ++
      (money6 x.charge ++ (money6 x.shortfall ++ (money6 x.consumed ++ (money6 x.forfeited ++ (money6 x.refunded ++
      (money6 x.held ++ (money6 x.carryOut ++ (w16 x.units ++ List.replicate 5 0))))))))))))))))) := by
  unfold callRecordBody
  rw [fit_of_le (by simp [packString])]
  simp [packString]

/-- The codes of the number stand behind the ten bytes that come before them. -/
theorem callRecordBody_number (q : Nat) (kind : RecordKind) (cause : EndCause) (c : CallControl) (ctx : Option RatingContext)
    (dur : Nat) (x : Figures) {i : Nat} (hi : i < 10) :
    (callRecordBody q kind cause c ctx dur x)[0x0A + i]? =
      some (b8 (c.number.getD (2 * i) 15 * 16 + c.number.getD (2 * i + 1) 15)) := by
  have tail : ∃ l, (callRecordBody q kind cause c ctx dur x).drop 0x0A = packCodes c.number 10 ++ l := by
    rw [callRecordBody_parts]
    simp [drop_past]
  obtain ⟨l, e⟩ := tail
  rw [← List.getElem?_drop, e, List.getElem?_append_left (by rwa [packCodes_length]), packCodes_getElem? _ _ hi]

/-- Settles O36: what the release and the new call leave of the state in which the record was handed over, and the bytes of a
record read off its parts, whose lengths are fixed. -/
theorem followOnCarriesTheCredit : Obligations.FollowOnCarriesTheCredit := by
  unfold Obligations.FollowOnCarriesTheCredit
  refine ⟨fun s h => ?_, fun q kind cause c ctx dur x => ?_⟩
  · intro t a short x dur
    have ht : t = enterSeizing true (handOverAccount (dropLine (followOnRecorded s))) := takeFollowOn_eq h
    have writer : t.writer = (followOnRecorded s).writer := by rw [ht]; simp [enterSeizing, handOverAccount, dropLine]
    have held : t.call.heldRecords = (followOnRecorded s).call.heldRecords := by
      rw [ht]; simp [enterSeizing, handOverAccount, dropLine]
    have duration : (followOnBegun s).call.duration = dur := followOnBegun_duration s
    have recorded : (s.call.seq = none → t.writer = s.writer ∧ t.call.heldRecords = s.call.heldRecords) ∧
        (∀ q, s.call.seq = some q →
          t.writer = (handRecord ⟨q, .closed, callRecordBody q .closed .followOn s.call s.rate.ctx dur x⟩ s).writer ∧
          t.call.heldRecords =
            (handRecord ⟨q, .closed, callRecordBody q .closed .followOn s.call s.rate.ctx dur x⟩ s).call.heldRecords) := by
      rw [writer, held]
      refine ⟨fun hq => ?_, fun q hq => ?_⟩
      · rw [followOnRecorded, handCallRecord_none (by exact hq)]
        exact ⟨rfl, rfl⟩
      · rw [followOnRecorded, handCallRecord_some (q := q) (by exact hq), duration]
        exact handRecord_congr _ rfl rfl
    obtain ⟨w, l, e⟩ := followOnRecorded_frame s
    rw [e] at ht
    simp only [enterSeizing, handOverAccount, dropLine, followOnBegun, endCharging, stopTimers, State.onLine, State.onPins,
      State.onAcct, State.onRate, State.onCall, State.onNum] at ht
    refine ⟨?_, ?_, ?_, ?_, ?_, ?_, ?_, ?_, ?_, ?_, ?_, ?_, recorded⟩ <;> rw [ht] <;> rfl
  · intro body at_
    have parts := callRecordBody_parts q kind cause c ctx dur x
    refine ⟨?_, ?_, ?_, ?_, ?_, ?_, ?_, ?_, fun i hi => take_one_drop (callRecordBody_number q kind cause c ctx dur x hi), ?_, ?_, ?_,
      ?_, ?_, ?_, ?_, ?_, ?_, ?_, ?_, ?_, ?_, ?_⟩
    case refine_6 => rintro rfl; simp [at_, body, parts, w16, b8]
    case refine_7 => rintro r rfl; simp [at_, body, parts, drop_past]
    case refine_10 =>
      have slice : at_ 0x15 5 = stampBytes c.dialTime := by simp [at_, body, parts, drop_past]
      exact slice
    all_goals simp [at_, body, parts, drop_past, flagBit, b8]

end Sys2Proof.Machine
end

section
/-!
PROOFS. The call: the routing of a number (O31), hook and handset (O32), the timers of the call (O33), a finished return-all and the
entry into IDLE (O35), answer and clear-back (O37).
-/

namespace Sys2Proof.Machine

/-! ### A timer that runs out outside reset -/

theorem complete_expiry {s : State} {x : State → Option Nat} {d : Nat} {f : State → State} (h : s.start.rstHeld = false)
    (hx : x s = some d) :
    complete (outOfReset s fun s => onExpiry (x s) s f) = .next (refreshPins (f (s.reach d))) :=
  complete_running h (by simp only [hx, onExpiry_some])

theorem complete_timer {s : State} {c : State → Prop} [DecidablePred c] {x : State → Option Nat} {d : Nat} {f : State → State}
    (h : s.start.rstHeld = false) (hc : c s) (hx : x s = some d) :
    complete (outOfReset s fun s => if c s then onExpiry (x s) s f else s) = .next (refreshPins (f (s.reach d))) :=
  complete_running h (by simp only [hx, hc, if_true, onExpiry_some])

theorem complete_if {s : State} {c : State → Prop} [DecidablePred c] {f g : State → State} (h : s.start.rstHeld = false)
    (hc : c s) : complete (outOfReset s fun s => if c s then f s else g s) = .next (refreshPins (f s)) :=
  complete_running h (if_pos hc)

theorem complete_else {s : State} {c : State → Prop} [DecidablePred c] {f g : State → State} (h : s.start.rstHeld = false)
    (hc : ¬ c s) : complete (outOfReset s fun s => if c s then f s else g s) = .next (refreshPins (g s)) :=
  complete_running h (if_neg hc)

/-! ### Routing -/

theorem blocksRouting_iff (r : Reasons) : r.blocksRouting = true ↔ r ≠ Reasons.empty := by
  rw [Ne, ← blocksRouting_eq_false_iff, Bool.not_eq_false]

theorem undiallable_iff (s : State) :
    undiallable s = true ↔ (∃ d ∈ s.num.buffer, 10 ≤ d) ∧ s.req.cfg.dialMethod = .decadic := by
  simp [undiallable]

theorem refuseNumber_eq (r : Refusing) (s : State) : refuseNumber r s = { s with
    num := { s.num with refused := bump 65535 s.num.refused, lastRefusal := r, buffer := [], silenceEnd := none }
    call := { s.call with
      holdEnd := if s.call.holdFlag = true then none else some (s.now + 1000 * s.req.cfg.offhookHold) } } := by
  simp only [refuseNumber, restartHold, countRefusal, State.onNum, State.onCall]
  rfl

theorem awaitDeposit_eq (deposit : Nat) (s : State) : awaitDeposit deposit s = { s with
    num := { s.num with silenceEnd := none }
    call := { s.call with
      st := .awaitDeposit, deposit := deposit, depositEnd := some (s.now + 30000), grantEnd := none, answerEnd := none
      assumedEnd := none, holdEnd := none, followEnd := none, holdFlag := false
      duration := if s.call.st = .connected ∨ s.call.st = .grace then durationNow s else s.call.duration } } := by
  rw [awaitDeposit, stopTimers_eq]
  rfl

theorem gap16_next16 (a b : Nat) : gap16 (next16 a) (next16 b) = (((a : Int) - b) % 65536).toNat := by
  unfold gap16 next16
  omega

theorem unacked_eq (c : CallControl) : c.unacked = gap16 c.nextSeq (next16 c.ackedSeq) := rfl

theorem allocateRecord_eq (s : State) : allocateRecord s = { s with call := { s.call with
    seq := some s.call.nextSeq, nextSeq := next16 s.call.nextSeq
    almostFull := decide (128 - s.req.cfg.ringMargin ≤ gap16 (next16 s.call.nextSeq) (next16 s.call.ackedSeq))
    reasons := { s.call.reasons with
      ringFull := s.call.reasons.ringFull || decide (124 ≤ gap16 (next16 s.call.nextSeq) (next16 s.call.ackedSeq)) } } } := by
  by_cases full : 124 ≤ gap16 (next16 s.call.nextSeq) (next16 s.call.ackedSeq)
  · rw [allocateRecord, if_pos (by exact full), decide_eq_true full, Bool.or_true]
    rfl
  · rw [allocateRecord, if_neg (by exact full), decide_eq_false full, Bool.or_false]
    rfl

theorem dialNumber_eq {s : State} (hc : s.call.st ≠ .connected) (hg : s.call.st ≠ .grace) : dialNumber s =
    tellSent (loadSender .call .number s.req.cfg.dialMethod s.call.number { s with
      num := { s.num with silenceEnd := none }
      call := { s.call with
        st := .dialling, dialTime := s.stamp, grantEnd := none, depositEnd := none, answerEnd := none, assumedEnd := none
        holdEnd := none, followEnd := none, holdFlag := false } }) := by
  rw [dialNumber, stopTimers_eq, if_neg (by simp [hc, hg])]
  rfl

/-- Settles O31, by the order of the routing table. -/
theorem routingOrder : Obligations.RoutingOrder := by
  unfold Obligations.RoutingOrder
  refine ⟨fun k x s => ?_, fun s => ?_, fun s => ?_, fun s => dialNumber_eq⟩
  · intro refused routed blocked undiallable_
    have refuses : ∀ r, refuseNumber r s = refused r := fun r => refuseNumber_eq r s
    have blocked_iff : (s.call.reasons.blocksRouting && !x.free) = true ↔ blocked := by
      rw [Bool.and_eq_true, blocksRouting_iff, Bool.not_eq_true']
    refine ⟨fun hb => ?_, fun hb => ⟨fun hbl => ?_, fun hbl => ⟨fun hu => ?_, fun hu => ?_⟩⟩⟩
    · rw [← refuses, routeBand, if_pos hb]
    · rw [← refuses, routeBand, if_neg (by simp [hb]), if_pos (blocked_iff.mpr hbl)]
    · rw [← refuses, routeBand, if_neg (by simp [hb]), if_neg (mt blocked_iff.mp hbl), if_pos ((undiallable_iff s).mpr hu)]
    · rw [routeBand, if_neg (by simp [hb]), if_neg (mt blocked_iff.mp hbl), if_neg (mt (undiallable_iff s).mp hu)]
      refine ⟨fun hf room => ?_, fun hf room => ?_, fun hf paid => ?_, fun hf short => ?_⟩
      · rw [if_pos hf, if_pos room]; rfl
      · rw [if_pos hf, if_neg (by omega), refuses]
      · rw [if_neg (by simp [hf]), if_pos paid]; rfl
      · rw [if_neg (by simp [hf]), if_neg (by omega), awaitDeposit_eq]; rfl
  · exact ⟨rfl, rfl, rfl, rfl, fun _ _ => rfl, fun room => if_pos room, fun room => if_neg (by omega)⟩
  · intro u
    have hu : gap16 (next16 s.call.nextSeq) (next16 s.call.ackedSeq) = u := gap16_next16 ..
    rw [dialRecorded, allocateRecord_eq, hu]
    rfl

/-! ### Hook and handset -/

theorem takeOffHook_of_not {s : State} (h : s.start.phase ≠ .ready ∨ s.call.st ≠ .idle) : takeOffHook s = s :=
  if_neg fun k => h.elim (fun e => e k.1) fun e => e k.2

theorem takeOffHook_waits {s : State} (hp : s.start.phase = .ready) (hs : s.call.st = .idle) (ho : s.line.owner = .report) :
    takeOffHook s = s.onCall fun c => { c with waiting := true } := by
  rw [takeOffHook, if_pos ⟨hp, hs⟩, if_pos ho]

theorem takeOffHook_begins {s : State} (hp : s.start.phase = .ready) (hs : s.call.st = .idle) (ho : s.line.owner ≠ .report) :
    takeOffHook s = lineGrant (beginSeizing s) := by
  rw [takeOffHook, if_pos ⟨hp, hs⟩, if_neg ho]

theorem exec_offHook {s : State} (h : s.start.rstHeld = false) (hk : s.call.hook = .on) :
    exec .offHook s = .next (refreshPins (settle (takeOffHook (s.onCall fun c => { c with hook := .off })))) := by
  simp only [exec, execOffHook]
  exact complete_running h (if_neg (by simp [hk]))

/-- The state in which an on-hook event is acted on: OFFHOOK_HOLD has ended. -/
def hungUp (s : State) : State := endCondition .offhookHold (s.onCall fun c => { c with hook := .on })

/-- The end of a condition changes the incident table alone. -/
theorem endCondition_frame (k : IncidentKind) (s : State) : ∃ i, endCondition k s = { s with inc := i } := by
  unfold endCondition
  split
  · exact ⟨_, rfl⟩
  · split <;> exact ⟨_, rfl⟩

/-- An open event changes the incident table and notes itself in the dialler. -/
theorem openIncident_frame (k : IncidentKind) (s : State) : ∃ i d, openIncident k s = { s with inc := i, dial := d } := by
  by_cases h : s.req.cfg.severity.get k = 0
  · exact ⟨_, _, if_pos h⟩
  · rw [openIncident, if_neg h]
    split <;> exact ⟨_, _, rfl⟩

theorem exec_onHook {s : State} (h : s.start.rstHeld = false) (hk : s.call.hook = .off) :
    exec .onHook s = .next (refreshPins (settle (takeOnHook (hungUp s)))) := by
  simp only [exec, execOnHook]
  exact complete_running h (if_neg (by simp [hk]))

theorem takeOnHook_of_not_ready {s : State} (h : s.start.phase ≠ .ready) : takeOnHook s = s := if_neg h

theorem takeOnHook_idle {s : State} (hp : s.start.phase = .ready) (hs : s.call.st = .idle) :
    takeOnHook s = s.onCall fun c => { c with waiting := false } := by simp only [takeOnHook, hp, hs, if_true]

theorem takeOnHook_clearing {s : State} (hs : s.call.st = .clearing) : takeOnHook s = s := by
  simp only [takeOnHook, hs, ite_self]

theorem takeOnHook_parked {s : State} (hp : s.start.phase = .ready) (hs : s.call.st = .parked) :
    takeOnHook s = enterIdle s := by simp only [takeOnHook, hp, hs, if_true]

theorem takeOnHook_clears {s : State} (hp : s.start.phase = .ready) (hi : s.call.st ≠ .idle) (hk : s.call.st ≠ .parked)
    (hc : s.call.st ≠ .clearing) : takeOnHook s = enterClearing .callerCleared s := by
  rw [takeOnHook, if_pos hp]
  split <;> first | rfl | contradiction

theorem loseHandset_rests {s : State}
    (h : s.call.st = .clearing ∨ s.call.st = .parked ∨ (s.call.st = .idle ∧ s.call.waiting = false)) : loseHandset s = s := by
  rcases h with h | h | ⟨h, w⟩
  · simp [loseHandset, h, clearCall, CallState.inCall]
  · simp [loseHandset, h, clearCall, CallState.inCall]
  · simp [loseHandset, h, w]

theorem loseHandset_waits {s : State} (h : s.call.st = .idle) (w : s.call.waiting = true) : loseHandset s = enterParked s := by
  simp only [loseHandset, h, w, if_true]

theorem clearCall_rests (cause : EndCause) {s : State} (h : s.call.st = .idle ∨ s.call.st = .parked ∨ s.call.st = .clearing) :
    clearCall cause s = s := by
  rcases h with h | h | h <;> simp [clearCall, h, CallState.inCall]

theorem inCall_iff (c : CallState) : c.inCall = true ↔ c ≠ .idle ∧ c ≠ .parked ∧ c ≠ .clearing := by
  cases c <;> simp [CallState.inCall]

theorem clearCall_clears (cause : EndCause) {s : State} (hi : s.call.st ≠ .idle) (hk : s.call.st ≠ .parked)
    (hc : s.call.st ≠ .clearing) : clearCall cause s = enterClearing cause s := if_pos ((inCall_iff _).mpr ⟨hi, hk, hc⟩)

theorem loseHandset_clears {s : State} (hi : s.call.st ≠ .idle) (hk : s.call.st ≠ .parked) (hc : s.call.st ≠ .clearing) :
    loseHandset s = enterClearing .handsetLost s := by
  rw [loseHandset]
  split
  · contradiction
  · exact clearCall_clears _ hi hk hc

theorem exec_handsetLoss {s : State} (h : s.start.rstHeld = false) (hk : s.call.hook = .off) :
    exec .handsetLoss s = .next (refreshPins (settle (loseHandset (openIncident .cordCut s)))) := by
  simp only [exec, execHandsetLoss]
  exact complete_running h (if_pos hk)

theorem hungUp_frame (s : State) : ∃ i, hungUp s = { s with call := { s.call with hook := .on }, inc := i } :=
  endCondition_frame .offhookHold _

/-- Settles O32, by the state that the event finds the call in. -/
theorem hookAndHandset : Obligations.HookAndHandset := by
  unfold Obligations.HookAndHandset
  refine ⟨fun s h => ⟨fun hk => ?_, fun hk => ⟨fun k => ?_, fun hp hs ho => ?_, fun hp hs ho => ?_⟩⟩, fun s h => ?_⟩
  · simp only [exec, execOffHook]
    exact complete_if h hk
  · rw [exec_offHook h hk, takeOffHook_of_not (by exact k)]; rfl
  · rw [exec_offHook h hk, takeOffHook_waits (by exact hp) (by exact hs) (by exact ho)]; rfl
  · rw [exec_offHook h hk, takeOffHook_begins (by exact hp) (by exact hs) (by exact ho)]; rfl
  · obtain ⟨i, on⟩ := hungUp_frame s
    obtain ⟨j, d, cut⟩ := openIncident_frame .cordCut s
    refine ⟨fun hk => ?_, fun hk => ⟨fun k => ?_, fun hp hs => ?_, fun hp hs => ?_, fun hp hi hk' hc => ?_⟩, fun hk => ?_,
      fun hk => ⟨fun k => ?_, fun hs hw => ?_, fun hi hk' hc => ?_⟩, ?_⟩
    · simp only [exec, execOnHook]
      exact complete_if h hk
    · rw [exec_onHook h hk]
      rcases k with k | k
      · rw [takeOnHook_of_not_ready (by rw [on]; exact k)]; rfl
      · rw [takeOnHook_clearing (by rw [on]; exact k)]; rfl
    · rw [exec_onHook h hk, takeOnHook_idle (by rw [on]; exact hp) (by rw [on]; exact hs)]; rfl
    · rw [exec_onHook h hk, takeOnHook_parked (by rw [on]; exact hp) (by rw [on]; exact hs)]; rfl
    · rw [exec_onHook h hk, takeOnHook_clears (by rw [on]; exact hp) (by rw [on]; exact hi) (by rw [on]; exact hk')
        (by rw [on]; exact hc)]; rfl
    · simp only [exec, execHandsetLoss]
      exact complete_else h (by simp [hk])
    · rw [exec_handsetLoss h hk, loseHandset_rests (by rw [cut]; exact k)]
    · rw [exec_handsetLoss h hk, loseHandset_waits (by rw [cut]; exact hs) (by rw [cut]; exact hw)]; rfl
    · rw [exec_handsetLoss h hk, loseHandset_clears (by rw [cut]; exact hi) (by rw [cut]; exact hk') (by rw [cut]; exact hc)]
    · simp only [exec, execContRestored]
      exact complete_running h rfl

/-! ### The timers of the call -/

theorem askPreempt_eq {s : State} (h : s.line.owner = .call ∧ s.line.reportReq = true ∧ s.call.st = .collect ∧
    s.call.holdFlag = true) : askPreempt s = preempt s := by
  obtain ⟨owner, request, collect, flag⟩ := h
  exact if_pos ⟨owner, request, by simp [preemptible, collect, flag]⟩

theorem askPreempt_rests {s : State} (h : ¬ (s.line.owner = .call ∧ s.line.reportReq = true ∧ s.call.st = .collect ∧
    s.call.holdFlag = true)) : askPreempt s = s := by
  refine if_neg fun ⟨owner, request, k⟩ => h ⟨owner, request, ?_⟩
  simpa [preemptible] using k

theorem silenceOver_some {s : State} {r : Route} (h : completesOn s.tariff.shadow.routes s.num.buffer = some r) :
    silenceOver s = completeNumber r (s.onNum fun n => { n with silenceEnd := none }) := by simp only [silenceOver, h]

theorem silenceOver_none {s : State} (h : completesOn s.tariff.shadow.routes s.num.buffer = none) :
    silenceOver s = refuseNumber .noRoute (s.onNum fun n => { n with silenceEnd := none }) := by simp only [silenceOver, h]

theorem exec_silenceTimeout {s : State} {d : Nat} (h : s.start.rstHeld = false) (hs : s.call.st = .collect)
    (hd : s.num.silenceEnd = some d) : exec .silenceTimeout s = .next (refreshPins (settle (silenceOver (s.reach d)))) := by
  simp only [exec, execSilenceTimeout]
  exact complete_timer h hs hd

/-- Settles O33, timer by timer. -/
theorem callTimersRunOut : Obligations.CallTimersRunOut := by
  unfold Obligations.CallTimersRunOut
  refine ⟨fun s => ⟨askPreempt_eq, askPreempt_rests⟩, fun s d h => ?_⟩
  simp only [exec, execGrantTimeout, execAnswerTimeout, execGraceExpiry, execFollowOnWindowExpiry, execDepositTimeout,
    execOffhookHoldTimeout]
  refine ⟨fun hs hd => (complete_timer h hs hd).trans rfl,
    fun hs hd => (complete_timer h hs hd).trans rfl,
    fun hs hd => (complete_timer h hs hd).trans rfl,
    fun hs hd => (complete_timer h hs hd).trans rfl,
    fun hs hd => (complete_timer h hs hd).trans rfl,
    fun hs hd => (complete_timer h hs hd).trans rfl,
    fun hs hd => ?_⟩
  rw [show execSilenceTimeout s = exec .silenceTimeout s from rfl, exec_silenceTimeout h hs hd]
  refine ⟨fun r hr => ?_, fun hr => ?_⟩
  · rw [silenceOver_some (s := s.reach d) hr]; rfl
  · rw [silenceOver_none (s := s.reach d) hr, refuseNumber_eq]; rfl

/-! ### The entry into IDLE and the end of a clearing -/

/-- IDLE entered, before a pending switch or configuration is looked at. -/
def idleEntered (s : State) : State :=
  (s.onCall fun c => { c with st := .idle, waiting := false }).onNum fun n => { n with keys := [] }

theorem enterIdle_eq (s : State) : enterIdle s = applyConfig (tariffSwitch (idleEntered s)) := rfl

theorem tariffSwitch_pending {s : State} {x : Shadow} (h : s.tariff.activation = .pending)
    (hx : s.tariff.pendShadow = some x) : tariffSwitch s = handBankSwitch { s with
      call := { s.call with reasons := { s.call.reasons with tariffFault := false } }
      tariff := { s.tariff with
        bank := s.tariff.pendBank, version := s.tariff.pendVersion, shadow := x, clamped := x.clampCount
        activation := .none, pendBank := .a, pendVersion := 0, pendShadow := none } } := by
  unfold tariffSwitch
  rw [h, hx]
  rfl

theorem tariffSwitch_rests {s : State} (h : s.tariff.activation ≠ .pending ∨ s.tariff.pendShadow = none) :
    tariffSwitch s = s := by
  unfold tariffSwitch
  split
  · next ha hx => rcases h with h | h <;> simp_all
  · rfl

theorem applyConfig_pending {s : State} {c : Settings} (h : s.req.reload = .pending) (hc : s.req.pendCfg = some c) :
    applyConfig s = takeSettings { s with
      req := { s.req with cfg := c, defaults := false, pendCfg := none, reload := .none }
      call := { s.call with reasons := { s.call.reasons with configFault := false } } } := by
  unfold applyConfig
  rw [h, hc]
  rfl

theorem applyConfig_rests {s : State} (h : s.req.reload ≠ .pending ∨ s.req.pendCfg = none) : applyConfig s = s := by
  unfold applyConfig
  split
  · next ha hx => rcases h with h | h <;> simp_all
  · rfl

/-- A BANK_SWITCH that is handed over reaches the queue or the tariff's marks. -/
theorem handBankSwitch_frame (s : State) : ∃ w t, handBankSwitch s = { s with writer := w, tariff := t } := by
  unfold handBankSwitch
  split
  · exact ⟨_, _, rfl⟩
  · split <;> exact ⟨_, _, rfl⟩

theorem handBankSwitch_req (s : State) : (handBankSwitch s).req = s.req := by
  obtain ⟨w, t, e⟩ := handBankSwitch_frame s
  rw [e]

theorem finishReturnAll_clearing {s : State} (h : s.call.st = .clearing) :
    finishReturnAll s = completeClearing (s.onCoin fun c => { c with returnAll := none }) := if_pos h

/-- The call's record handed over with its closing figures. -/
def clearingRecorded (s : State) : State := handCallRecord .closed s.call.cause s.call.duration (closingFigures s.acct) s

/-- The account cleared and the end cause shown. -/
def clearingClosed (u : State) : State :=
  clearAccount (u.onCall fun c => { c with lastCause := c.cause, cause := .none, seq := none, followOn := false })

theorem completeClearing_eq (s : State) : completeClearing s =
    if (clearingClosed (clearingRecorded s)).call.hook = .off then enterParked (clearingClosed (clearingRecorded s))
    else enterIdle (clearingClosed (clearingRecorded s)) := rfl

/-- Settles O35: first what an entry into IDLE brings, then the record and the hook at the end of a clearing. -/
theorem returnAllCompletesClearing : Obligations.ReturnAllCompletesClearing := by
  unfold Obligations.ReturnAllCompletesClearing
  refine ⟨fun s => ?_, fun s hs => ?_⟩
  · intro y configured
    have applied : ∀ z : State, z.req = s.req → configured z (applyConfig z) := fun z hz =>
      ⟨fun c hr hc => applyConfig_pending (by rw [hz]; exact hr) (by rw [hz]; exact hc),
        fun k => applyConfig_rests (by rw [hz]; exact k)⟩
    refine ⟨fun x ha hx => ?_, fun k => ?_⟩
    · rw [enterIdle_eq, tariffSwitch_pending (s := idleEntered s) ha hx]
      exact applied _ (handBankSwitch_req _)
    · rw [enterIdle_eq, tariffSwitch_rests (s := idleEntered s) k]
      exact applied y rfl
  · intro t a rec_ closed
    have recorded : clearingRecorded t = rec_ := by
      cases hq : s.call.seq with
      | none => simp only [rec_, hq, clearingRecorded]; exact handCallRecord_none hq
      | some q => simp only [rec_, hq, clearingRecorded]; exact handCallRecord_some (q := q) hq
    have e : finishReturnAll s = if closed.call.hook = .off then enterParked closed else enterIdle closed := by
      rw [finishReturnAll_clearing hs]
      exact (completeClearing_eq t).trans (by rw [recorded]; rfl)
    refine ⟨fun hk => ?_, fun hk => ?_⟩
    · rw [e, if_pos (by exact hk)]; rfl
    · rw [e, if_neg (by simp [closed, hk])]

/-! ### Answer and clear-back -/

theorem signalsPass_iff {l : Line} : signalsPass l = true ↔
    l.owner = .call ∧ (l.st = .ready ∨ l.st = .sending ∨ l.st = .awaitAnswer ∨ l.st = .answered) := by
  simp [signalsPass, or_assoc]

theorem exec_reversalPresent {s : State} (h : s.start.rstHeld = false) (passes : signalsPass s.line = true)
    (hr : s.line.reversal = false) : exec .reversalPresent s = .next (refreshPins
      (if s.call.st = .ringing then takeAnswer .reversal (s.onLine fun l => { l with reversal := true })
       else s.onLine fun l => { l with reversal := true })) := by
  simp only [exec, execReversalPresent]
  exact complete_running h (if_pos ⟨passes, hr⟩)

theorem exec_clearBack {s : State} (h : s.start.rstHeld = false) (passes : signalsPass s.line = true)
    (hr : s.line.reversal = true) : exec .clearBack s = .next (refreshPins
      (if s.call.st.charging ∧ s.req.cfg.supervision = .supervised
       then enterAfterCall (s.onLine fun l => { l with reversal := false })
       else s.onLine fun l => { l with reversal := false })) := by
  simp only [exec, execClearBack]
  exact complete_running h (if_pos ⟨passes, hr⟩)

theorem enterAfterCall_eq {s : State} (h : s.call.st = .connected ∨ s.call.st = .grace) : enterAfterCall s = { s with
    acct := { s.acct with
      shortfall := satAdd 999999 s.acct.shortfall s.acct.o, o := 0, lowCredit := false
      sat := s.acct.sat || decide (999999 < s.acct.shortfall + s.acct.o) }
    rate := { s.rate with nextStep := none, graceEnd := none }
    num := { s.num with silenceEnd := none }
    call := { s.call with
      st := .afterCall, followEnd := some (s.now + 10000), duration := durationNow s, grantEnd := none
      depositEnd := none, answerEnd := none, assumedEnd := none, holdEnd := none, holdFlag := false } } := by
  rw [enterAfterCall, stopTimers_eq, if_pos h]
  rfl

/-- Settles O37. -/
theorem answerAndClearBack : Obligations.AnswerAndClearBack := by
  unfold Obligations.AnswerAndClearBack
  intro s h
  refine ⟨fun d hs hd => ?_, fun owner hl => ?_⟩
  · simp only [exec, execAssumedAnswerTimeout]
    exact complete_timer h hs hd
  have passes := signalsPass_iff.mpr ⟨owner, hl⟩
  refine ⟨fun x hs hx hm => ?_, fun hr => ⟨?_, ?_⟩, fun hr => ⟨?_, fun k => ?_, fun hc hv => ?_⟩⟩
  · simp only [exec, execMeterPulse]
    exact complete_running h (by simp only [hx, passes, hm, and_self, if_true, meterPulse, hs])
  · exact exec_reversalPresent h passes hr
  · simp only [exec, execClearBack]
    exact complete_else h (by simp [hr])
  · simp only [exec, execReversalPresent]
    exact complete_else h (by simp [hr])
  · rw [exec_clearBack h passes hr, if_neg]
    · rfl
    · rw [charging_iff]
      rintro ⟨hc, hv⟩
      rcases k with k | k
      · exact hc.elim k.1 k.2
      · rw [k] at hv; cases hv
  · rw [exec_clearBack h passes hr, if_pos ⟨(charging_iff _).mpr hc, hv⟩, enterAfterCall_eq (by exact hc)]
    rfl

end Sys2Proof.Machine
end

section
/-!
PROOFS. The line: its events (O38), release and grant (O39), the sender (O40); and the keys by call state (O29).
-/

namespace Sys2Proof.Machine

/-! ### Seizure and loss -/

/-- The line released by its owner, with the failed seizure counted. -/
def seizureCounted (s : State) : State :=
  (releaseLine s.line.owner s).onLine fun l => { l with seizeFails := bump 255 l.seizeFails }

/-- The line released by its owner, with the loss counted. -/
def lossCounted (s : State) : State :=
  (releaseLine s.line.owner s).onLine fun l => { l with lineLosses := bump 255 l.lineLosses }

theorem seizureFailed_call {s : State} (ho : s.line.owner = .call) (hs : s.call.st = .seizing) :
    seizureFailed s = enterClearing .noDialtone (seizureCounted s) := by
  simp only [seizureFailed, seizureCounted, ho, hs, if_true]

theorem seizureFailed_report {s : State} (ho : s.line.owner = .report) :
    seizureFailed s = attemptFail .noDialtone (seizureCounted s) := by
  simp only [seizureFailed, seizureCounted, ho]

theorem lineLost_call {s : State} (ho : s.line.owner = .call) : lineLost s = clearCall .lineLost (lossCounted s) := by
  simp only [lineLost, lossCounted, ho]

theorem lineLost_report {s : State} (ho : s.line.owner = .report) : lineLost s = attemptFail .lineLost (lossCounted s) := by
  simp only [lineLost, lossCounted, ho]

theorem loopLost_rests {s : State} (h : s.line.owner = .none ∨ s.line.loopSuspended = true) : loopLost s = s := if_pos h

theorem loopLost_seizing {s : State} (ho : s.line.owner ≠ .none) (hl : s.line.loopSuspended = false)
    (hs : s.line.st = .seizing) : loopLost s = seizureFailed s := by
  simp only [loopLost, ho, hl, hs, Bool.false_eq_true, or_self, if_false, if_true]

theorem loopLost_later {s : State} (ho : s.line.owner ≠ .none) (hl : s.line.loopSuspended = false)
    (hs : s.line.st ≠ .seizing) : loopLost s = lineLost s := by
  simp only [loopLost, ho, hl, hs, Bool.false_eq_true, or_self, if_false]

theorem lineReady_call {s : State} (ho : s.line.owner = .call) (hs : s.call.st = .seizing) :
    lineReady s = enterCollect (s.onLine fun l => { l with st := .ready, dialToneEnd := none }) := by
  simp only [lineReady, ho, hs, if_true]

theorem lineReady_report {s : State} (ho : s.line.owner = .report) :
    lineReady s = tellSent (loadSender .report .number s.req.cfg.dialMethod s.dial.number
      ((s.onLine fun l => { l with st := .ready, dialToneEnd := none }).onDial fun d => { d with st := .dialling })) := by
  simp only [lineReady, ho]

theorem exec_loopLoss {s : State} (h : s.start.rstHeld = false) :
    exec .loopLoss s = .next (refreshPins (settle (loopLost s))) := by
  simp only [exec, execLoopLoss]
  exact complete_running h rfl

theorem exec_dialToneQualified {s : State} (h : s.start.rstHeld = false) (hs : s.line.st = .seizing) :
    exec .dialToneQualified s = .next (refreshPins (settle (lineReady s))) := by
  simp only [exec, execDialToneQualified]
  exact complete_if h hs

theorem exec_dialToneTimeout {s : State} {d : Nat} (h : s.start.rstHeld = false) (hs : s.line.st = .seizing)
    (hd : s.line.dialToneEnd = some d) :
    exec .dialToneTimeout s = .next (refreshPins (settle (seizureFailed (s.reach d)))) := by
  simp only [exec, execDialToneTimeout]
  exact complete_timer h hs hd

/-- Settles O38, by the owner of the line. -/
theorem lineEvents : Obligations.LineEvents := by
  unfold Obligations.LineEvents
  refine ⟨fun cause s => ⟨clearCall_rests cause, clearCall_clears cause⟩, fun s h => ?_⟩
  intro freed failed lost
  refine ⟨fun d hs hd => ?_, fun hs ho hc => ?_, fun hs ho => ?_, fun d hs hd => ⟨fun ho hc => ?_, fun ho => ?_⟩, fun k => ?_,
    fun hl hs => ⟨fun ho hc => ?_, fun ho => ?_⟩, fun hl hs => ⟨fun ho => ?_, fun ho => ?_⟩⟩
  · simp only [exec, execGuardEnd]
    exact (complete_timer h hs hd).trans rfl
  · rw [exec_dialToneQualified h hs, lineReady_call ho hc]; rfl
  · rw [exec_dialToneQualified h hs, lineReady_report ho]; rfl
  · rw [exec_dialToneTimeout h hs hd, seizureFailed_call (s := s.reach d) ho hc]; rfl
  · rw [exec_dialToneTimeout h hs hd, seizureFailed_report (s := s.reach d) ho]; rfl
  · rw [exec_loopLoss h, loopLost_rests k]
  · rw [exec_loopLoss h, loopLost_seizing (by simp [ho]) hl hs, seizureFailed_call ho hc]; rfl
  · rw [exec_loopLoss h, loopLost_seizing (by simp [ho]) hl hs, seizureFailed_report ho]; rfl
  · rw [exec_loopLoss h, loopLost_later (by simp [ho]) hl hs, lineLost_call ho]; rfl
  · rw [exec_loopLoss h, loopLost_later (by simp [ho]) hl hs, lineLost_report ho]; rfl

/-! ### Marks and grant -/

/-- The digits with which the waiting keys begin. -/
theorem prefix_waitingDigits_iff {e : List Nat} {keys : List Key} : e <+: waitingDigits keys ↔
    ∃ (ds : List (Fin 10)) (rest : List Key), ds.map (·.val) = e ∧ keys = ds.map Key.digit ++ rest := by
  induction e generalizing keys with
  | nil => exact ⟨fun _ => ⟨[], keys, rfl, rfl⟩, fun _ => List.nil_prefix⟩
  | cons n e ih =>
    constructor
    · intro h
      cases keys with
      | nil => simp [waitingDigits] at h
      | cons k keys =>
        cases k with
        | digit d =>
          rw [waitingDigits, List.cons_prefix_cons] at h
          obtain ⟨ds, rest, hds, hk⟩ := ih.mp h.2
          exact ⟨d :: ds, rest, by simp [hds, h.1], by simp [hk]⟩
        | _ => simp [waitingDigits] at h
    · rintro ⟨ds, rest, hds, rfl⟩
      cases ds with
      | nil => simp at hds
      | cons d ds =>
        obtain ⟨hd, hds⟩ := List.cons.inj hds
        simp only [List.map_cons, List.cons_append, waitingDigits, List.cons_prefix_cons]
        exact ⟨hd.symm, ih.mpr ⟨ds, rest, hds, rfl⟩⟩

theorem emergencyMark_iff (s : State) : emergencyMark s = true ↔ ∃ (ds : List (Fin 10)) (rest : List Key),
    ds ≠ [] ∧ ds.map (·.val) ∈ s.req.cfg.emergency ∧ s.num.keys = ds.map Key.digit ++ rest := by
  simp only [emergencyMark, List.any_eq_true, Bool.and_eq_true, bne_iff_ne, List.isPrefixOf_iff_prefix,
    prefix_waitingDigits_iff]
  constructor
  · rintro ⟨e, he, hne, ds, rest, rfl, hk⟩
    exact ⟨ds, rest, by simpa using hne, he, hk⟩
  · rintro ⟨ds, rest, hne, he, hk⟩
    exact ⟨ds.map (·.val), he, by simpa using hne, ds, rest, rfl, hk⟩

theorem urgentMark_iff (s : State) :
    urgentMark s = true ↔ ∃ k x, s.inc.slots.get k = some x ∧ x.report = .unreported ∧ x.severity = 3 := by
  simp only [urgentMark, List.any_eq_true, Prod.exists, mem_kindSlots, Bool.and_eq_true, beq_iff_eq]

theorem grantee_call {s : State} (hc : s.line.callReq = true)
    (h : s.line.reportReq = false ∨ (s.line.reservation = false ∧ (emergencyMark s = true ∨ urgentMark s = false))) :
    grantee s = .call := by
  rcases h with h | ⟨hr, h⟩
  · simp [grantee, hc, h]
  · rcases h with h | h <;> cases hq : s.line.reportReq <;> simp [grantee, hc, hr, h, hq]

theorem grantee_report {s : State} (hc : s.line.reportReq = true)
    (h : s.line.callReq = false ∨ s.line.reservation = true ∨ (emergencyMark s = false ∧ urgentMark s = true)) :
    grantee s = .report := by
  rcases h with h | h | ⟨he, hu⟩
  · simp [grantee, hc, h]
  · simp [grantee, hc, h]
  · cases hr : s.line.reservation <;> cases hq : s.line.callReq <;> simp [grantee, hc, he, hu, hr, hq]

theorem grantee_none {s : State} (hc : s.line.callReq = false) (hr : s.line.reportReq = false) : grantee s = .none := by
  simp [grantee, hc, hr]

theorem lineGrant_none {s : State} (h : grantee s = .none) : lineGrant s = s := by
  simp only [lineGrant, h, ite_self]

theorem lineGrant_call {s : State} (hs : s.line.st = .released) (hp : s.start.phase = .ready) (h : grantee s = .call) :
    lineGrant s = { s with
      pins := { s.pins with seize := true }
      line := { s.line with
        owner := .call, callReq := false, st := .seizing, dialToneEnd := some (s.now + 1000 * s.req.cfg.dialToneTimeout) }
      call := { s.call with grantEnd := none } } := by
  unfold lineGrant
  rw [if_pos ⟨hs, hp⟩, h]
  rfl

theorem lineGrant_report {s : State} (hs : s.line.st = .released) (hp : s.start.phase = .ready) (h : grantee s = .report) :
    lineGrant s = { s with
      pins := { s.pins with seize := true }
      line := { s.line with
        owner := .report, reportReq := false, reservation := false, st := .seizing
        dialToneEnd := some (s.now + 1000 * s.req.cfg.dialToneTimeout) }
      dial := { s.dial with st := .seizing } } := by
  unfold lineGrant
  rw [if_pos ⟨hs, hp⟩, h]
  rfl

/-- Settles O39. -/
theorem releaseAndGrant : Obligations.ReleaseAndGrant := by
  unfold Obligations.ReleaseAndGrant
  refine fun s => ⟨emergencyMark_iff s, urgentMark_iff s, fun w => releaseLine_of_other, fun w hw ho hc => ?_, fun ho hc => ?_,
    fun k => ?_, fun hs hp => ⟨fun hc k => lineGrant_call hs hp (grantee_call hc k),
      fun hr k => lineGrant_report hs hp (grantee_report hr k)⟩⟩
  · rw [releaseLine_of_owner hw ho hc]; rfl
  · rw [releaseLine_waiting ho hc]; rfl
  · rcases k with k | k | ⟨hc, hr⟩
    · exact lineGrant_of_not_released k
    · exact if_neg fun e => k e.2
    · exact lineGrant_none (grantee_none hc hr)

/-! ### The sender -/

theorem dropUnsendable_first {pre rest : List Nat} {d : Nat} (hpre : ∀ c ∈ pre, 10 ≤ c) (hd : d < 10) :
    dropUnsendable .decadic (pre ++ d :: rest) = d :: rest := by
  rw [dropUnsendable, List.dropWhile_append_of_pos (by simpa using hpre),
    List.dropWhile_cons_of_neg (by simp only [decide_eq_true_eq]; omega)]

theorem dropUnsendable_all {l : List Nat} (h : ∀ c ∈ l, 10 ≤ c) : dropUnsendable .decadic l = [] := by
  rw [dropUnsendable, List.dropWhile_eq_nil_iff]
  simpa using h

theorem startDigit_nil {s : State} (h : s.line.queue = []) : startDigit s = { s with
    pins := { s.pins with toneOn := false, td := 0 }
    line := { s.line with phase := .idle, phaseEnd := none, breaks := 0, loopSuspended := false } } := by
  unfold startDigit
  rw [h]
  rfl

theorem startDigit_tone {s : State} {d : Nat} {rest : List Nat} (hm : s.line.mode = .tone) (h : s.line.queue = d :: rest) :
    startDigit s = { s with
      pins := { s.pins with toneOn := true, td := d }
      line := { s.line with phase := .toneOn, phaseEnd := some (s.now + s.line.tOn) } } := by
  unfold startDigit
  rw [h, hm]
  rfl

theorem startDigit_decadic {s : State} {d : Nat} {rest : List Nat} (hm : s.line.mode = .decadic)
    (h : s.line.queue = d :: rest) : startDigit s = { s with
      pins := { s.pins with seize := false }
      line := { s.line with
        breaks := if d = 0 then 10 else d, phase := .breaking, phaseEnd := some (s.now + 60), loopSuspended := true } } := by
  unfold startDigit
  rw [h, hm]
  rfl

theorem completeDigit_tone {s : State} (hm : s.line.mode = .tone) :
    completeDigit s = startDigit (s.onLine fun l => { l with queue := l.queue.tail }) := by
  simp only [completeDigit, State.onLine, hm, dropUnsendable]

theorem completeDigit_more {s : State} {y : Nat} {rest : List Nat} (hm : s.line.mode = .decadic)
    (hq : dropUnsendable .decadic s.line.queue.tail = y :: rest) : completeDigit s = { s with
      line := { s.line with
        queue := y :: rest, phase := .pause, phaseEnd := some (s.now + 700), breaks := 0, loopSuspended := false } } := by
  simp only [completeDigit, State.onLine, hm, hq]
  rfl

theorem completeDigit_last {s : State} (hm : s.line.mode = .decadic) (hq : dropUnsendable .decadic s.line.queue.tail = []) :
    completeDigit s = startDigit (s.onLine fun l => { l with queue := [] }) := by
  simp only [completeDigit, State.onLine, hm, hq]

theorem tellSent_rests {s : State} (h : s.line.st ≠ .sending ∨ s.line.queue ≠ [] ∨ s.line.phase ≠ .idle) : tellSent s = s := by
  refine if_neg fun k => ?_
  simp only [sendingOver, Bool.and_eq_true, beq_iff_eq] at k
  obtain ⟨⟨hs, hq⟩, hp⟩ := k
  exact h.elim (· hs) (·.elim (· hq) (· hp))

theorem sendingOver_iff {l : Line} : sendingOver l = true ↔ l.st = .sending ∧ l.queue = [] ∧ l.phase = .idle := by
  simp [sendingOver, and_assoc]

theorem tellSent_call {s : State} (h : sendingOver s.line = true) (hn : s.line.origin = .number) (ho : s.line.owner = .call)
    (hc : s.call.st = .dialling) : tellSent s = enterRinging (s.onLine fun l => { l with st := .awaitAnswer }) := by
  simp only [tellSent, h, hn, ho, hc, if_true]

theorem tellSent_report {s : State} (h : sendingOver s.line = true) (hn : s.line.origin = .number)
    (ho : s.line.owner = .report) (hd : s.dial.st = .dialling) : tellSent s =
      (s.onLine fun l => { l with st := .awaitAnswer }).onDial fun d =>
        { d with st := .awaitReady, handEnd := some (s.now + readyLimit) } := by
  simp only [tellSent, h, hn, ho, hd, if_true]

theorem tellSent_message {s : State} (h : sendingOver s.line = true) (hn : s.line.origin = .message)
    (hd : s.dial.st = .message) : tellSent s =
      (s.onLine fun l => { l with st := .answered }).onDial fun d =>
        { d with st := .awaitKissoff, handEnd := some (s.now + kissoffLimit) } := by
  simp only [tellSent, h, hn, hd, if_true]

/-- A load that is taken: the line is SENDING, with the digits that can be sent. -/
def loaded (origin : SendOrigin) (mode : DialMethod) (q : List Nat) (s : State) : State :=
  s.onLine fun l =>
    { l with st := .sending, origin := origin, mode := mode, tOn := s.req.cfg.toneOn, tOff := s.req.cfg.toneOff, queue := q }

theorem loadSender_taken {w : LineOwner} {o : SendOrigin} {m : DialMethod} {ds : List Nat} {s : State} (ho : s.line.owner = w)
    (hs : s.line.st = loadState o) : loadSender w o m ds s = startDigit (loaded o m (dropUnsendable m (ds.take 80)) s) :=
  if_pos (by simp [mayLoad, ho, hs])

theorem loadSender_refused {w : LineOwner} {o : SendOrigin} {m : DialMethod} {ds : List Nat} {s : State}
    (h : s.line.owner ≠ w ∨ s.line.st ≠ loadState o) : loadSender w o m ds s = s :=
  if_neg (by rcases h with h | h <;> simp [mayLoad, h])

theorem isMeter_iff (s : State) : isMeter s = true ↔ ∃ x, s.rate.ctx = some x ∧ x.mode = .meter := by
  unfold isMeter
  split <;> simp [*]

/-- Answer is assumed after a delay: the line has no supervision, and the call is not of a METER band. -/
def assumes (s : State) : Bool := s.req.cfg.supervision == .unsupervised && !isMeter s

theorem assumes_iff (s : State) : assumes s = true ↔
    s.req.cfg.supervision = .unsupervised ∧ ¬ ∃ x, s.rate.ctx = some x ∧ x.mode = .meter := by
  rw [assumes, Bool.and_eq_true, beq_iff_eq, Bool.not_eq_true', Bool.eq_false_iff, Ne, isMeter_iff]

/-- The call in RINGING, with this assumed-answer timer. -/
def ringing (e : Option Nat) (s : State) : State :=
  s.onCall fun c => { c with st := .ringing, answerEnd := some (s.now + 120000), assumedEnd := e }

theorem enterRinging_eq (s : State) : enterRinging s =
    let t := ringing (if assumes s then some (s.now + 1000 * s.req.cfg.assumedDelay) else none) s
    if s.line.reversal then takeAnswer .reversal t
    else if assumes s ∧ s.req.cfg.assumedDelay = 0 then takeAnswer .assumed t
    else t := rfl

theorem enterRinging_reversal {s : State} (h : s.line.reversal = true) : enterRinging s = takeAnswer .reversal
    (ringing (if assumes s then some (s.now + 1000 * s.req.cfg.assumedDelay) else none) s) := by
  rw [enterRinging_eq]
  exact if_pos h

theorem enterRinging_supervised {s : State} (h : s.line.reversal = false) (k : assumes s = false) :
    enterRinging s = ringing none s := by
  simp only [enterRinging_eq, h, k, Bool.false_eq_true, false_and, if_false]

theorem enterRinging_delayed {s : State} (h : s.line.reversal = false) (k : assumes s = true)
    (hd : 0 < s.req.cfg.assumedDelay) : enterRinging s = ringing (some (s.now + 1000 * s.req.cfg.assumedDelay)) s := by
  simp only [enterRinging_eq, h, k, Nat.ne_of_gt hd, Bool.false_eq_true, and_false, if_true, if_false]

theorem enterRinging_at_once {s : State} (h : s.line.reversal = false) (k : assumes s = true)
    (hd : s.req.cfg.assumedDelay = 0) : enterRinging s = takeAnswer .assumed (ringing (some s.now) s) := by
  simp only [enterRinging_eq, h, k, hd, Bool.false_eq_true, and_self, if_true, if_false, Nat.mul_zero, Nat.add_zero]

theorem exec_toneOffEnd {s : State} {d : Nat} (h : s.start.rstHeld = false) (hp : s.line.phase = .toneOff)
    (hd : s.line.phaseEnd = some d) :
    exec .toneOffEnd s = .next (refreshPins (tellSent (completeDigit (s.reach d)))) := by
  simp only [exec, execToneOffEnd]
  exact complete_timer h hp hd

theorem exec_decadicMakeEnd {s : State} {d : Nat} (h : s.start.rstHeld = false) (hp : s.line.phase = .making)
    (hd : s.line.phaseEnd = some d) : exec .decadicMakeEnd s = .next (refreshPins (endMake (s.reach d))) := by
  simp only [exec, execDecadicMakeEnd]
  exact complete_timer h hp hd

theorem endMake_break {s : State} (h : 1 < s.line.breaks) :
    endMake s = startBreak (s.onLine fun l => { l with breaks := l.breaks - 1 }) := if_pos h

theorem endMake_digit {s : State} (h : s.line.breaks ≤ 1) : endMake s = tellSent (completeDigit s) := if_neg (by omega)

/-- Settles O40: the timers, the end of a sequence, the loads, and the entry into RINGING. -/
theorem senderTimers : Obligations.SenderTimers := by
  unfold Obligations.SenderTimers
  refine ⟨fun s d h hd => ?_, fun s => ⟨tellSent_rests, fun hs hq hp => ?_⟩, fun w o m ds s ho => ?_, fun s => ?_⟩
  · intro now idle quiet
    refine ⟨fun hp => ?_, fun x y rest hp hm hq => ?_, fun x hp hm hq => ?_, fun hp => ?_, fun hp hb => ?_,
      fun x rest hp hb hm hq hr => ?_, fun x y mid rest hp hb hm hq hr hy => ?_, fun x rest hp hm hq => ?_⟩
    · simp only [exec, execToneOnEnd]
      exact (complete_timer h hp hd).trans rfl
    · rw [exec_toneOffEnd h hp hd, completeDigit_tone (s := s.reach d) hm,
        startDigit_tone (d := y) (rest := rest) (by exact hm) (by simp [hq]), tellSent_rests (.inr (.inr (by simp)))]
      simp only [State.onLine, State.reach, hq, List.tail_cons]
      rfl
    · rw [exec_toneOffEnd h hp hd, completeDigit_tone (s := s.reach d) hm, startDigit_nil (by simp [hq])]
      simp only [State.onLine, State.reach, hq, List.tail_cons]
      rfl
    · simp only [exec, execDecadicBreakEnd]
      exact (complete_timer h hp hd).trans rfl
    · rw [exec_decadicMakeEnd h hp hd, endMake_break (s := s.reach d) hb]
      rfl
    · have last : dropUnsendable .decadic (s.reach d).line.queue.tail = [] := by
        rw [State.reach_line, hq, List.tail_cons, dropUnsendable_all hr]
      rw [exec_decadicMakeEnd h hp hd, endMake_digit (s := s.reach d) hb, completeDigit_last (s := s.reach d) hm last,
        startDigit_nil rfl]
      rfl
    · have next : dropUnsendable .decadic (s.reach d).line.queue.tail = y :: rest := by
        rw [State.reach_line, hq, List.cons_append, List.tail_cons, dropUnsendable_first hr hy]
      rw [exec_decadicMakeEnd h hp hd, endMake_digit (s := s.reach d) hb, completeDigit_more (s := s.reach d) hm next,
        tellSent_rests (.inr (.inl (by simp)))]
      rfl
    · simp only [exec, execInterDigitPauseEnd]
      rw [complete_timer h hp hd, startDigit_decadic (s := s.reach d) hm hq]
      rfl
  · have sent := sendingOver_iff.mpr ⟨hs, hq, hp⟩
    exact ⟨tellSent_call sent, tellSent_report sent, tellSent_message sent⟩
  · intro needed
    have state : loadState o = needed := by rcases ho with rfl | rfl <;> rfl
    refine ⟨fun k => loadSender_refused (by rwa [state]), fun how hst => ?_⟩
    rw [loadSender_taken how (by rwa [state])]
    intro loaded_
    refine ⟨fun d rest hm hq => ?_, fun pre d rest hm hq hpre hd => ?_, fun k => ?_⟩
    · subst hm
      rw [hq, startDigit_tone (d := d) (rest := rest) rfl rfl]
      rfl
    · subst hm
      rw [hq, dropUnsendable_first hpre hd, startDigit_decadic (d := d) (rest := rest) rfl rfl]
      rfl
    · have none_left : dropUnsendable m (ds.take 80) = [] := by
        rcases k with rfl | ⟨rfl, k⟩
        · cases m <;> rfl
        · exact dropUnsendable_all k
      rw [none_left, startDigit_nil rfl]
      rfl
  · intro assumed t
    have assumes_false : ¬ assumed → assumes s = false := fun k => by rwa [Bool.eq_false_iff, Ne, assumes_iff]
    refine ⟨fun hr => ⟨fun k => enterRinging_supervised hr (assumes_false k),
      fun k => enterRinging_delayed hr ((assumes_iff s).mpr k), fun k => enterRinging_at_once hr ((assumes_iff s).mpr k)⟩,
      fun hr => ⟨fun k => ?_, fun k => ?_⟩⟩
    · rw [enterRinging_reversal hr, if_neg (by simp [assumes_false k])]
      rfl
    · rw [enterRinging_reversal hr, if_pos ((assumes_iff s).mpr k)]
      rfl

/-! ### Keys -/

/-- A code that a key stands for in the buffer and in the sender. -/
def keyCode (k : Key) (c : Nat) : Prop := (∃ d : Fin 10, k = .digit d ∧ c = d.val) ∨ (k = .star ∧ c = 10) ∨ (k = .hash ∧ c = 11)

theorem exec_keyTake {s : State} {k : Key} {rest : List Key} (h : s.start.rstHeld = false) (hk : s.num.keys = k :: rest)
    (hs : s.call.st ≠ .seizing) : exec .keyTake s =
      .next (refreshPins (settle (handleKey k (s.onNum fun n => { n with keys := rest })))) := by
  simp only [exec, execKeyTake]
  exact complete_running h (by simp only [hk, hs, if_false])

theorem handleKey_collect {k : Key} {s : State} (h : s.call.st = .collect) : handleKey k s = collectKey k s := by
  simp only [handleKey, h]

theorem handleKey_connected {k : Key} {s : State} (h : s.call.st = .connected) : handleKey k s = connectedKey k s := by
  simp only [handleKey, h]

theorem handleKey_afterCall {k : Key} {s : State} (h : s.call.st = .afterCall) : handleKey k s = afterCallKey k s := by
  simp only [handleKey, h]

theorem handleKey_rests {k : Key} {s : State} (hc : s.call.st ≠ .collect) (hn : s.call.st ≠ .connected)
    (ha : s.call.st ≠ .afterCall) : handleKey k s = s := by
  unfold handleKey
  split <;> first | rfl | contradiction

theorem collectKey_stores {k : Key} {c : Nat} {s : State} (hk : keyCode k c)
    (he : k ≠ .hash ∨ completesOn s.tariff.shadow.routes s.num.buffer = none) : collectKey k s = storeDigit c s := by
  rcases hk with ⟨d, rfl, rfl⟩ | ⟨rfl, rfl⟩ | ⟨rfl, rfl⟩
  · rfl
  · rfl
  · simp only [collectKey, hashKey, he.resolve_left (· rfl)]

theorem hashKey_ends {r : Route} {s : State} (h : completesOn s.tariff.shadow.routes s.num.buffer = some r) :
    hashKey s = completeNumber r s := by simp only [hashKey, h]

theorem connectedKey_sends {k : Key} {c : Nat} {s : State} (hk : keyCode k c) : connectedKey k s = toneKey c s := by
  rcases hk with ⟨d, rfl, rfl⟩ | ⟨rfl, rfl⟩ | ⟨rfl, rfl⟩ <;> rfl

theorem connectedKey_rests {k : Key} {s : State} (hf : k ≠ .followOn) (h : k = .clear ∨ s.req.cfg.dialMethod = .decadic) :
    connectedKey k s = s := by
  cases k with
  | followOn => contradiction
  | clear => rfl
  | digit d => exact if_pos (h.resolve_left nofun)
  | star => exact if_pos (h.resolve_left nofun)
  | hash => exact if_pos (h.resolve_left nofun)

theorem afterCallKey_rests {k : Key} {s : State} (hf : k ≠ .followOn) : afterCallKey k s = s := by
  cases k <;> first | rfl | contradiction

theorem clearKey_empty {s : State} (h : s.num.buffer = []) :
    clearKey s = s.onNum fun n => { n with buffer := [], silenceEnd := none } := if_pos h

theorem clearKey_filled {s : State} (h : s.num.buffer ≠ []) :
    clearKey s = restartHold (s.onNum fun n => { n with buffer := [], silenceEnd := none }) := if_neg h

theorem mayLoad_tone_iff {l : Line} : mayLoad .call .afterAnswer l = true ↔ l.owner = .call ∧ l.st = .answered := by
  simp [mayLoad, loadState]

/-- Settles O29: the key queue, the key by the call state, and the tone digit appended. -/
theorem keysByCallState : Obligations.KeysByCallState := by
  unfold Obligations.KeysByCallState
  refine ⟨fun s h => ⟨fun k => ?_, fun hn => ?_, fun k rest hk => ?_⟩, fun c s => ?_⟩
  · simp only [exec, execKeyEvent]
    exact complete_running h rfl
  · simp only [exec, execKeyTake]
    refine complete_running h ?_
    split
    · rfl
    · next k rest hk => exact if_pos (hn.resolve_left (by simp [hk]))
  · intro t ended
    refine ⟨fun hs => ?_, fun c hc => ⟨fun hs he => ⟨fun room => ?_, fun full => ?_⟩, fun hs hm => ?_⟩, fun r hh hs hr => ?_,
      fun hh hs => ?_, fun hh hs => ?_⟩
    · rcases hs with hs | hs | hs | hs | hs | hs | hs | ⟨hs, hf⟩ | ⟨hs, hf, hd⟩ | ⟨hs, rfl⟩
      iterate 7 rw [exec_keyTake h hk (by simp [hs]), handleKey_rests (by simp [hs]) (by simp [hs]) (by simp [hs])]; rfl
      · rw [exec_keyTake h hk (by simp [hs]), handleKey_afterCall (by exact hs), afterCallKey_rests hf]; rfl
      · rw [exec_keyTake h hk (by simp [hs]), handleKey_connected (by exact hs), connectedKey_rests hf (by exact hd)]; rfl
      · rw [exec_keyTake h hk (by simp [hs]), handleKey_collect (by exact hs)]; rfl
    · rw [exec_keyTake h hk (by simp [hs]), handleKey_collect (by exact hs), collectKey_stores hc (by exact he), storeDigit,
        if_pos (by exact room)]
      rfl
    · rw [exec_keyTake h hk (by simp [hs]), handleKey_collect (by exact hs), collectKey_stores hc (by exact he), storeDigit,
        if_neg (by exact Nat.not_lt.mpr full)]
      rfl
    · rw [exec_keyTake h hk (by simp [hs]), handleKey_connected (by exact hs), connectedKey_sends hc, toneKey,
        if_neg (by simp [hm])]
      rfl
    · subst hh
      rw [exec_keyTake h hk (by simp [hs]), handleKey_collect (by exact hs)]
      rw [collectKey, hashKey_ends (by exact hr)]
      rfl
    · subst hh
      rw [exec_keyTake h hk (by simp [hs]), handleKey_collect (by exact hs), collectKey]
      by_cases empty : s.num.buffer = []
      · rw [clearKey_empty (by exact empty)]
        simp only [empty, ne_eq, not_true_eq_false, false_and, if_false]
        rfl
      · rw [clearKey_filled (by exact empty)]
        cases flag : s.call.holdFlag with
        | true =>
          rw [restartHold_of_flagged (by exact flag)]
          simp only [empty, ne_eq, not_false_eq_true, Bool.true_eq_false, and_false, if_false, if_true]
          rfl
        | false =>
          rw [restartHold_of_unflagged (by exact flag)]
          simp only [empty, ne_eq, not_false_eq_true, and_self, if_true]
          rfl
    · subst hh
      rcases hs with hs | hs
      · rw [exec_keyTake h hk (by simp [hs]), handleKey_connected (by exact hs)]; rfl
      · rw [exec_keyTake h hk (by simp [hs]), handleKey_afterCall (by exact hs)]; rfl
  · intro t taken
    have taken_iff : (mayLoad .call .afterAnswer s.line = true ∧ s.line.queue.length < 80) ↔ taken := by
      rw [mayLoad_tone_iff, and_assoc]
    refine ⟨fun k => if_neg (mt taken_iff.mp k), fun k hp => ?_, fun k hp => ?_, fun k hp hq => ?_⟩
    · exact (if_pos (taken_iff.mpr k)).trans (if_neg hp)
    · exact (if_pos (taken_iff.mpr k)).trans (if_pos hp)
    · refine ((if_pos (taken_iff.mpr k)).trans (if_pos hp)).trans ?_
      exact startDigit_tone (s := t) (d := c) (rest := []) rfl (by simp [t, hq])

end Sys2Proof.Machine
end

section
/-!
PROOFS. The coin path: transit entries (O12), strobes (O13), passages (O14, O15), standing and commitment (O16), the flap driver
(O17) and its failures (O18), the purge (O21).
-/

namespace Sys2Proof.Machine

/-! ### The first entry that satisfies a condition -/

theorem changeFirst_append {p : Transit → Bool} {f : Transit → Transit} {pre post : List Transit} {x : Transit}
    (hpre : ∀ y ∈ pre, p y = false) (hx : p x = true) : changeFirst p f (pre ++ x :: post) = pre ++ f x :: post := by
  induction pre with
  | nil => simp [changeFirst, hx]
  | cons y rest ih =>
    simp [changeFirst, hpre y List.mem_cons_self, ih fun z hz => hpre z (List.mem_cons_of_mem _ hz)]

theorem changeFirst_none {p : Transit → Bool} {f : Transit → Transit} {l : List Transit} (h : ∀ y ∈ l, p y = false) :
    changeFirst p f l = l := by
  induction l with
  | nil => rfl
  | cons y rest ih => simp [changeFirst, h y List.mem_cons_self, ih fun z hz => h z (List.mem_cons_of_mem _ hz)]

theorem removeFirst_append {p : Transit → Bool} {pre post : List Transit} {x : Transit} (hpre : ∀ y ∈ pre, p y = false)
    (hx : p x = true) : removeFirst p (pre ++ x :: post) = pre ++ post := by
  induction pre with
  | nil => simp [removeFirst, hx]
  | cons y rest ih =>
    simp [removeFirst, hpre y List.mem_cons_self, ih fun z hz => hpre z (List.mem_cons_of_mem _ hz)]

theorem find?_first {p : Transit → Bool} {pre post : List Transit} {x : Transit} (hpre : ∀ y ∈ pre, p y = false)
    (hx : p x = true) : (pre ++ x :: post).find? p = some x := by
  rw [List.find?_append, List.find?_eq_none.mpr (by simpa using hpre), List.find?_cons_of_pos hx]
  rfl

theorem any_append_of_pos {p : Transit → Bool} {pre post : List Transit} {x : Transit} (hx : p x = true) :
    (pre ++ x :: post).any p = true := by simp [hx]

theorem numbered_eq_false {p : Transit → Bool} {pre : List Transit} {n : Nat} (h : ∀ y ∈ pre, y.number ≠ n) :
    ∀ y ∈ pre, (y.number == n && p y) = false := fun y hy => by simp [h y hy]

/-- The entry with a number, and what is left without it. -/
theorem findTransit_first {p : Transit → Bool} {s : State} {pre post : List Transit} {x : Transit}
    (h : s.coin.transit = pre ++ x :: post) (hpre : ∀ y ∈ pre, y.number ≠ x.number) (hx : p x = true) :
    findTransit p x.number s = some x := by
  rw [findTransit, h]
  exact find?_first (numbered_eq_false hpre) (by simp [hx])

theorem removeTransit_first {p : Transit → Bool} {s : State} {pre post : List Transit} {x : Transit}
    (h : s.coin.transit = pre ++ x :: post) (hpre : ∀ y ∈ pre, y.number ≠ x.number) (hx : p x = true) :
    removeTransit p x.number s = s.onCoin fun c => { c with transit := pre ++ post } := by
  simp only [removeTransit, State.onCoin, h, removeFirst_append (numbered_eq_false hpre) (by simp [hx] : (x.number == x.number && p x) = true)]

theorem isEntered_iff {x : Transit} : isEntered x = true ↔ x.st = .entered := by simp [isEntered]

theorem isComing_iff {x : Transit} : isComing x = true ↔ x.st = .accepted ∧ x.atSensor = false := by simp [isComing]

theorem isReturning_iff {x : Transit} : isReturning x = true ↔ x.st = .rejected ∨ x.st = .diverted := by simp [isReturning]

theorem isStuck_iff {x : Transit} : isStuck x = true ↔ x.st = .entered ∨ (x.st = .accepted ∧ x.atSensor = false) := by
  rw [isStuck, Bool.or_eq_true, isEntered_iff, isComing_iff]

theorem purgeOver_iff (s : State) : purgeOver s = true ↔ s.start.phase = .settling ∨ s.start.phase = .ready := by
  simp [purgeOver]

theorem coinPathAtRest_iff (s : State) :
    coinPathAtRest s = true ↔ s.start.phase = .resetting ∨ s.start.phase = .scanning := by
  simp [coinPathAtRest]

/-! ### Entry, deadlines and failed returns -/

theorem exec_transitDeadlineExpiry {s : State} {x : Transit} {n d : Nat} (h : s.start.rstHeld = false)
    (hx : findTransit isStuck n s = some x) (hd : x.deadline = some d) :
    exec (.transitDeadlineExpiry n) s = .next (refreshPins (settle (jamTransit n (s.reach d)))) := by
  simp only [exec, execTransitDeadlineExpiry]
  exact complete_running h (by simp only [hx, hd, onExpiry_some])

theorem exec_failedTransitReturn {s : State} {x : Transit} {n d : Nat} (h : s.start.rstHeld = false)
    (hx : findTransit isReturning n s = some x) (hd : x.deadline = some d) :
    exec (.failedTransitReturn n) s = .next (refreshPins (settle (failReturn n (s.reach d)))) := by
  simp only [exec, execFailedTransitReturn]
  exact complete_running h (by simp only [hx, hd, onExpiry_some])

/-- Settles O12. -/
theorem transitEntries : Obligations.TransitEntries := by
  unfold Obligations.TransitEntries
  refine ⟨fun s h => ⟨fun k => ?_, fun k => ⟨fun room => ?_, fun full => ?_⟩⟩, fun s pre post x d h hl hpre hd =>
    ⟨fun hx => ?_, fun hx => ⟨fun first => ?_, fun again => ?_⟩⟩⟩
  · have early : purgeOver s = false := by rw [Bool.eq_false_iff, Ne, purgeOver_iff]; exact fun e => e.elim k.1 k.2
    simp only [exec, execEntry]
    exact complete_running h (by simp only [early, Bool.not_false, if_true])
  · simp only [exec, execEntry]
    refine (complete_running (t := addTransit s) h ?_).trans rfl
    simp only [(purgeOver_iff s).mpr k, room, Bool.not_true, Bool.false_eq_true, if_false, if_true]
  · simp only [exec, execEntry]
    refine complete_running h ?_
    simp only [(purgeOver_iff s).mpr k, Nat.not_lt.mpr full, Bool.not_true, Bool.false_eq_true, if_false]
  · have stuck := isStuck_iff.mpr hx
    rw [exec_transitDeadlineExpiry h (findTransit_first hl hpre stuck) hd, jamTransit,
      removeTransit_first (s := s.reach d) hl hpre stuck]
    rfl
  · have returning := isReturning_iff.mpr hx
    rw [exec_failedTransitReturn h (findTransit_first hl hpre returning) hd, failReturn,
      removeTransit_first (s := s.reach d) hl hpre returning, if_pos (by simp [first])]
    simp only [State.onCoin, State.reach, first]
  · have returning := isReturning_iff.mpr hx
    rw [exec_failedTransitReturn h (findTransit_first hl hpre returning) hd, failReturn,
      removeTransit_first (s := s.reach d) hl hpre returning, if_neg (by simp; omega)]
    rfl

/-! ### Strobes -/

theorem acceptsClass_iff (s : State) (k : Fin 8) : acceptsClass s k = true ↔ s.req.cfg.values.get k ≠ 0 ∧
    s.coin.escrow.length + (s.coin.transit.filter fun y => y.st == .accepted).length < 10 ∧
    s.start.phase = .ready ∧ s.call.st.acceptsCoins = true ∧ s.call.reasons.closesGate = false ∧
    (s.call.st = .collect ∨ s.call.st = .awaitDeposit → s.call.reasons.blocksRouting = false) ∧ s.pfw = false := by
  rw [acceptsClass, Bool.and_eq_true, Bool.and_eq_true, coinsWanted_iff, bne_iff_ne, decide_eq_true_eq, and_assoc]

theorem exec_validatorStrobe {s : State} {a : StrobeAnswer} (h : s.start.rstHeld = false) (hr : s.start.phase ≠ .resetting)
    (hs : s.start.phase ≠ .scanning) : exec (.validatorStrobe a) s = .next (refreshPins
      (if s.coin.transit.any isEntered then strobeEntry a s else strayStrobe s)) := by
  have begun : coinPathAtRest s = false := by simp [coinPathAtRest, hr, hs]
  simp only [exec, execValidatorStrobe]
  exact complete_running h (by simp only [begun, Bool.false_eq_true, if_false])

theorem decideTransit_first {s : State} {pre post : List Transit} {x : Transit} (st : TransitState) (cls : Option (Fin 8))
    (hl : s.coin.transit = pre ++ x :: post) (hpre : ∀ y ∈ pre, y.st ≠ .entered) (hx : x.st = .entered) :
    decideTransit st cls s = s.onCoin fun c => { c with
      transit := pre ++ { x with st := st, cls := cls, deadline := some (s.now + transitTime) } :: post } := by
  simp only [decideTransit, State.onCoin, hl]
  rw [changeFirst_append (fun y hy => by simp [isEntered, hpre y hy]) (isEntered_iff.mpr hx)]

/-- Settles O13. -/
theorem strobeAndAccept : Obligations.StrobeAndAccept := by
  unfold Obligations.StrobeAndAccept
  refine ⟨fun s h => ⟨fun k a => ?_, fun hr hs => ⟨fun hn a => ?_, fun pre post x hl hpre hx => ?_⟩⟩, fun s d h hd => ?_⟩
  · simp only [exec, execValidatorStrobe]
    exact complete_running h (if_pos ((coinPathAtRest_iff s).mpr k))
  · rw [exec_validatorStrobe h hr hs, if_neg (by simpa [isEntered] using hn)]
    rfl
  · have entered : s.coin.transit.any isEntered = true := by rw [hl]; exact any_append_of_pos (isEntered_iff.mpr hx)
    refine ⟨?_, fun k => ?_⟩
    · rw [exec_validatorStrobe h hr hs, if_pos entered, strobeEntry, decideTransit_first _ _ hl hpre hx]
      rfl
    · rw [exec_validatorStrobe h hr hs, if_pos entered, strobeEntry, decideTransit_first _ _ hl hpre hx,
        decideTransit_first _ _ hl hpre hx]
      split
      · rw [if_pos ((acceptsClass_iff s k).mp ‹_›)]
        rfl
      · rw [if_neg (mt (acceptsClass_iff s k).mpr ‹_›)]
        rfl
  · simp only [exec, execAcceptEnd]
    exact (complete_expiry h hd).trans rfl

/-! ### Passages -/

theorem exec_escinActive {s : State} (h : s.start.rstHeld = false) (hp : s.start.phase = .settling ∨ s.start.phase = .ready)
    (hn : s.coin.passage = none) :
    exec .escinActive s = .next (refreshPins (beginPassage (s.coin.transit.find? isComing) s)) := by
  simp only [exec, execEscinActive]
  exact complete_running h (if_pos ⟨(purgeOver_iff s).mpr hp, hn⟩)

theorem exec_stringingTimeout {s : State} {p : Passage} (h : s.start.rstHeld = false) (hp : s.coin.passage = some p)
    (hs : p.strung = false) : exec .stringingTimeout s = .next (refreshPins (settle (stringCoin p (s.reach p.limit)))) := by
  simp only [exec, execStringingTimeout]
  exact complete_running h (by simp only [hp, hs, Bool.false_eq_true, if_false])

/-- Settles O14. -/
theorem passagesAndStrings : Obligations.PassagesAndStrings := by
  unfold Obligations.PassagesAndStrings
  refine ⟨fun s h hp hn => ⟨fun k => ?_, fun pre post x hl hpre hx ha => ?_⟩, fun s p h hp hs => ⟨fun hb => ?_,
    fun pre post x hb hl hpre ha => ?_⟩⟩
  · have none_coming : ∀ y ∈ s.coin.transit, isComing y = false := fun y hy => by
      rw [Bool.eq_false_iff, Ne, isComing_iff]; exact k y hy
    rw [exec_escinActive h hp hn, List.find?_eq_none.mpr (by simpa using none_coming)]
    simp only [beginPassage, State.onCoin, changeFirst_none none_coming, Option.map_none]
    rfl
  · have coming := isComing_iff.mpr ⟨hx, ha⟩
    have before : ∀ y ∈ pre, isComing y = false := fun y hy => by
      rw [Bool.eq_false_iff, Ne, isComing_iff]; exact hpre y hy
    rw [exec_escinActive h hp hn]
    simp only [beginPassage, State.onCoin, hl, find?_first before coming, changeFirst_append before coming, Option.map_some]
    rfl
  · obtain ⟨bound, strung, limit⟩ := p
    obtain rfl : bound = none := hb
    rw [exec_stringingTimeout h hp hs]
    rfl
  · rw [exec_stringingTimeout h hp hs, stringCoin]
    simp only [hb, removeTransit_first (s := s.reach p.limit) hl hpre ha]
    rfl

/-- The state in which the end of a passage is acted on. -/
def passageOver (s : State) : State := s.onCoin fun c => { c with passage := none }

theorem appendStray_room {s : State} (h : s.coin.escrow.length < 10) :
    appendStray s = appendEscrow none 0 .releasingCollect .committed s := if_pos h

theorem appendStray_full {s : State} (h : 10 ≤ s.coin.escrow.length) : appendStray s = stringDetail s := if_neg (by omega)

theorem exec_escinInactive {s : State} {p : Passage} (h : s.start.rstHeld = false) (hp : s.coin.passage = some p) :
    exec .escinInactive s = .next (refreshPins (settle (endPassage p s))) := by
  simp only [exec, execEscinInactive]
  exact complete_running h (by simp only [hp])

theorem endPassage_stray {p : Passage} (s : State) (h : p.strung = true ∨ p.bound = none) :
    endPassage p s = appendStray (passageOver s) := by
  unfold endPassage
  split
  · rfl
  · next k =>
    rw [h.resolve_left k]
    rfl

theorem endPassage_bound {p : Passage} {s : State} {x : Transit} (hs : p.strung = false) (hb : p.bound = some x.number)
    (hx : findTransit (·.atSensor) x.number s = some x) : endPassage p s = completePassage x (passageOver s) := by
  simp only [endPassage, hs, hb, hx, Bool.false_eq_true, if_false]
  rfl

/-- The coin's entry has left the transit table. -/
theorem completePassage_class {x : Transit} {k : Fin 8} {s : State} {pre post : List Transit}
    (hl : s.coin.transit = pre ++ x :: post) (hpre : ∀ y ∈ pre, y.number ≠ x.number) (ha : x.atSensor = true)
    (hk : x.cls = some k) : completePassage x s =
      if s.coin.escrow.length < 10 then coinArrives k (s.onCoin fun c => { c with transit := pre ++ post })
      else stringDetail (s.onCoin fun c => { c with transit := pre ++ post }) := by
  have removed : (s.onCoin fun c => { c with transit := removeFirst (fun y => y.number == x.number && y.atSensor) c.transit }) =
      s.onCoin fun c => { c with transit := pre ++ post } := removeTransit_first (p := (·.atSensor)) hl hpre ha
  simp only [completePassage, removed, hk]
  rfl

/-- Settles O15. -/
theorem escinInactiveEndsPassage : Obligations.EscinInactiveEndsPassage := by
  unfold Obligations.EscinInactiveEndsPassage
  intro s p h hp
  rw [exec_escinInactive h hp]
  refine ⟨fun k => ?_, fun pre post x k hs hb hl hpre ha hk => ?_⟩
  · rw [endPassage_stray s k]
    refine ⟨fun room => ?_, fun full => ?_⟩
    · rw [appendStray_room (by exact room)]; rfl
    · rw [appendStray_full (by exact full)]; rfl
  · rw [endPassage_bound hs hb (findTransit_first hl hpre ha), completePassage_class (s := passageOver s) hl hpre ha hk]
    refine ⟨fun room => ?_, fun full => ?_⟩
    · rw [if_pos (by exact room)]; rfl
    · rw [if_neg (by exact Nat.not_lt.mpr full)]; rfl

end Sys2Proof.Machine
end

section
/-!
PROOFS. The rail and its releases: standing and commitment (O16), the flap driver (O17), releases that fail and the freeze (O18),
vault arrivals (O19), return events (O20), the purge (O21).
-/

namespace Sys2Proof.Machine

/-! ### Standing and commitment -/

theorem sessionOpen_iff (c : CallControl) :
    sessionOpen c = true ↔ c.st.acceptsCoins = true ∨ (c.st = .seizing ∧ c.followOn = true) := by simp [sessionOpen]

theorem coinArrives_returning {s : State} (h : s.coin.returnAll.isSome = true) (k : Fin 8) : coinArrives k s =
    creditCoin (s.req.cfg.values.get k) (appendEscrow (some k) (s.req.cfg.values.get k) .releasingReturn .credit s) := if_pos h

theorem coinArrives_session {s : State} (h : s.coin.returnAll = none) (ho : sessionOpen s.call = true) (k : Fin 8) :
    coinArrives k s = afterCredit
      (creditCoin (s.req.cfg.values.get k) (appendEscrow (some k) (s.req.cfg.values.get k) .held .credit s)) := by
  rw [coinArrives, if_neg (by simp [h]), if_pos ho]

theorem coinArrives_late {s : State} (h : s.coin.returnAll = none) (ho : sessionOpen s.call = false) (k : Fin 8) :
    coinArrives k s = appendEscrow (some k) (s.req.cfg.values.get k) .releasingReturn .heldOver s := by
  rw [coinArrives, if_neg (by simp [h]), if_neg (by simp [ho])]

theorem frozen_iff (s : State) :
    frozen s = true ↔ s.call.reasons.chuteBlocked = true ∨ s.call.reasons.flapFault = true := by simp [frozen, Reasons.freezes]

theorem frozen_eq_false {s : State} (hc : s.call.reasons.chuteBlocked = false) (hf : s.call.reasons.flapFault = false) :
    frozen s = false := by simp [frozen, Reasons.freezes, hc, hf]

theorem collectRequest_frozen {s : State} (h : frozen s = true) : collectRequest s = (none, s) := if_pos h

theorem collectRequest_eq_none {s : State} (h : commitFirst s.coin.escrow = none) : collectRequest s = (none, s) := by
  simp only [collectRequest, h, ite_self]

theorem collectRequest_eq_some {s : State} {v : Nat} {q : List Escrow} (hf : frozen s = false)
    (h : commitFirst s.coin.escrow = some (v, q)) : collectRequest s = (some v, collected v q s) := by
  simp only [collectRequest, hf, h, Bool.false_eq_true, if_false]
  rfl

/-- Settles O16. -/
theorem standingAndCommitment : Obligations.StandingAndCommitment := by
  unfold Obligations.StandingAndCommitment
  refine ⟨fun s k => ?_, fun s => ⟨fun h => ?_, fun pre post x hc hf hl hpre hst hs => ?_⟩⟩
  · intro v onRail paid
    refine ⟨fun h => ?_, fun h => ⟨fun ho => ?_, fun ho => ?_⟩⟩
    · rw [coinArrives_returning h]; rfl
    · rw [coinArrives_session h ((sessionOpen_iff _).mpr ho)]; rfl
    · rw [coinArrives_late h (by rwa [Bool.eq_false_iff, Ne, sessionOpen_iff])]; rfl
  · rcases h with h | h | h
    · exact collectRequest_frozen ((frozen_iff s).mpr (.inl h))
    · exact collectRequest_frozen ((frozen_iff s).mpr (.inr h))
    · exact collectRequest_eq_none (commitFirst_eq_none.mpr h)
  · rw [collectRequest_eq_some (frozen_eq_false hc hf) (by rw [hl]; exact commitFirst_append hpre ⟨hst, hs⟩)]
    rfl

/-! ### The flap driver -/

theorem exec_releaseStart_none {s : State} (h : s.start.rstHeld = false) (hr : releaseReady s = none) :
    exec .releaseStart s = .next (refreshPins s) := by
  simp only [exec, execReleaseStart]
  exact complete_running h (by simp only [hr])

theorem exec_releaseStart_some {s : State} {k : Coil} (h : s.start.rstHeld = false) (hr : releaseReady s = some k) :
    exec .releaseStart s = .next (refreshPins (startRelease k s)) := by
  simp only [exec, execReleaseStart]
  exact complete_running h (by simp only [hr])

/-- Every condition of R14 but the head's own state. -/
theorem releaseReady_head {s : State} {x : Escrow} {rest : List Escrow} (hl : s.coin.escrow = x :: rest)
    (hn : s.coin.inFlight = none) (hc : s.call.reasons.chuteBlocked = false) (hf : s.call.reasons.flapFault = false)
    (hp : s.pfw = false) (hd : s.coin.deadEnd = none) (hi : s.coin.flap = .idle) (hs : s.start.phase ≠ .purging) :
    releaseReady s = coilOf x.st := by
  simp [releaseReady, hl, hn, frozen_eq_false hc hf, hp, hd, hi, hs]

theorem releaseReady_none {s : State} (h : s.coin.escrow = [] ∨ s.coin.inFlight.isSome = true ∨
    s.call.reasons.chuteBlocked = true ∨ s.call.reasons.flapFault = true ∨ s.pfw = true ∨ s.coin.deadEnd.isSome = true ∨
    s.coin.flap ≠ .idle ∨ s.start.phase = .purging) : releaseReady s = none := by
  unfold releaseReady
  split
  · rfl
  · next x rest hl =>
    refine if_neg fun k => ?_
    simp only [Bool.and_eq_true, Option.isNone_iff_eq_none, Bool.not_eq_true', beq_iff_eq, bne_iff_ne] at k
    obtain ⟨⟨⟨⟨⟨hn, hf⟩, hp⟩, hd⟩, hi⟩, hs⟩ := k
    rw [Bool.eq_false_iff, Ne, frozen_iff, not_or] at hf
    simp_all

/-- Settles O17. -/
theorem flapDriver : Obligations.FlapDriver := by
  unfold Obligations.FlapDriver
  refine ⟨fun s h => ⟨fun x rest hl hn hc hf hp hd hi hs => ?_, fun k => exec_releaseStart_none h (releaseReady_none k)⟩,
    fun s d h => ⟨fun hd => ?_, fun hd => ?_⟩⟩
  · have ready := releaseReady_head hl hn hc hf hp hd hi hs
    refine ⟨fun hx => ?_, fun hx => ?_, fun hx => ?_⟩
    · rw [exec_releaseStart_some (k := .collect) h (by rw [ready, hx]; rfl)]; rfl
    · rw [exec_releaseStart_some (k := .return_) h (by rw [ready, hx]; rfl)]; rfl
    · exact exec_releaseStart_none h (by rw [ready, hx]; rfl)
  · simp only [exec, execFlapPulseEnd]
    exact (complete_expiry h hd).trans rfl
  · simp only [exec, execDeadTimeEnd]
    exact (complete_expiry h hd).trans rfl

/-! ### Releases that fail, and the freeze -/

theorem exec_confirmationWindowExpiry_first {s : State} {r : InFlight} (h : s.start.rstHeld = false)
    (hr : s.coin.inFlight = some r) (hf : r.retry = false) :
    exec .confirmationWindowExpiry s = .next (refreshPins (retryRelease r (s.reach r.windowEnd))) := by
  simp only [exec, execConfirmationWindowExpiry]
  exact complete_running h (by simp only [hr, hf, Bool.false_eq_true, if_false])

theorem exec_confirmationWindowExpiry_second {s : State} {r : InFlight} (h : s.start.rstHeld = false)
    (hr : s.coin.inFlight = some r) (hf : r.retry = true) :
    exec .confirmationWindowExpiry s = .next (refreshPins (settle (failRelease r.coil (s.reach r.windowEnd)))) := by
  simp only [exec, execConfirmationWindowExpiry]
  exact complete_running h (by simp only [hr, hf, if_true])

theorem failRelease_eq (k : Coil) (s : State) : failRelease k s = raiseFreezing
    (if k = .collect then .flapFault else .chuteBlocked) (if k = .collect then .flapFault else .chuteBlocked)
    (abandonRelease s) := by cases k <;> rfl

theorem abandonRelease_head {s : State} {x : Escrow} {rest : List Escrow} (h : s.coin.escrow = x :: rest) :
    abandonRelease s = { s with
      pins := { s.pins with flapC := false, flapR := false }
      coin := { s.coin with
        flap := .idle, inFlight := none, pulseEnd := none, deadEnd := none, escrow := { x with st := .held } :: rest } } := by
  simp only [abandonRelease, driveCoil, State.onCoin, State.onPins, h]
  rfl

theorem cancelReturns_none {c : CoinPath} (h : c.inFlight = none) : cancelReturns c = c.escrow.map unmarkReturn := by
  unfold cancelReturns
  cases c.escrow <;> simp [h]

theorem cancelReturns_some {c : CoinPath} {x : Escrow} {rest : List Escrow} (h : c.inFlight.isSome = true)
    (hl : c.escrow = x :: rest) : cancelReturns c = x :: rest.map unmarkReturn := by
  simp only [cancelReturns, hl, h, if_true]

theorem holdCredits_none {c : CoinPath} (h : c.inFlight = none) : holdCredits c = c.escrow.map holdOver := by
  unfold holdCredits
  cases c.escrow <;> simp [h]

theorem holdCredits_some {c : CoinPath} {x : Escrow} {rest : List Escrow} (h : c.inFlight.isSome = true)
    (hl : c.escrow = x :: rest) :
    holdCredits c = (if x.standing = .credit then { x with standing := .heldOver } else x) :: rest.map holdOver := by
  simp only [holdCredits, hl, h, Bool.true_and, beq_iff_eq]
  by_cases hx : x.standing = .credit
  · simp [hx]
  · simp [hx, holdOver]

theorem raiseFreezing_frozen {r : BlockReason} {k : IncidentKind} {s : State} (h : frozen s = true) :
    raiseFreezing r k s = openIncident k (raiseReason r s) := if_pos h

theorem openIncident_coin (k : IncidentKind) (s : State) : (openIncident k s).coin = s.coin := by
  obtain ⟨i, d, e⟩ := openIncident_frame k s
  rw [e]

/-- A freeze of an escrow that was not frozen, with the entries that it leaves. -/
theorem raiseFreezing_unfrozen {r : BlockReason} {k : IncidentKind} {s : State} {q : List Escrow} (h : frozen s = false)
    (hq : cancelReturns s.coin = q) : raiseFreezing r k s =
      if s.coin.returnAll.isSome = true
      then finishFrozen ((openIncident k (raiseReason r s)).onCoin fun c => { c with escrow := q })
      else (openIncident k (raiseReason r s)).onCoin fun c => { c with escrow := q } := by
  have coin : (openIncident k (raiseReason r s)).coin = s.coin := openIncident_coin k _
  subst hq
  simp only [raiseFreezing, h, Bool.false_eq_true, if_false, freezeEscrow, State.onCoin, coin]

theorem heldDetail_eq (v : Nat) (s : State) : heldDetail v s =
    if (s.inc.slots.get .chuteBlocked).isSome = true then addDetailMoney .chuteBlocked v s
    else addDetailMoney .flapFault v s := by
  unfold heldDetail
  split <;> simp [*]

/-- Settles O18. -/
theorem failedReleases : Obligations.FailedReleases := by
  unfold Obligations.FailedReleases
  refine ⟨fun s r h hr => ⟨fun hf => ?_, fun x rest hf hl => ?_⟩, fun s r k _ => ?_, fun s => ?_, fun s => ⟨rfl, rfl, rfl⟩⟩
  · rw [exec_confirmationWindowExpiry_first h hr hf]; rfl
  · rw [exec_confirmationWindowExpiry_second h hr hf, failRelease_eq, abandonRelease_head (s := s.reach r.windowEnd) hl]; rfl
  · intro back after
    exact ⟨raiseFreezing_frozen, fun hf hn => raiseFreezing_unfrozen hf (cancelReturns_none hn),
      fun x rest hf hs hl => raiseFreezing_unfrozen hf (cancelReturns_some hs hl)⟩
  · intro v keep money close
    have closed : ∀ q, holdCredits s.coin = q → finishFrozen s = close q := by
      rintro _ rfl
      simp only [finishFrozen, holdValue, heldDetail_eq]
      rfl
    exact ⟨fun hn => closed _ (holdCredits_none hn), fun x rest hs hl => closed _ (holdCredits_some hs hl),
      fun hc => if_neg hc⟩

/-! ### Arrivals in the vault -/

theorem inFlightEntry_some {k : Coil} {s : State} {r : InFlight} {x : Escrow} {rest : List Escrow}
    (hr : s.coin.inFlight = some r) (hk : r.coil = k) (hl : s.coin.escrow = x :: rest) :
    inFlightEntry k s = some (r, x) := by simp only [inFlightEntry, hr, hl, hk, if_true]

theorem inFlightEntry_none {k : Coil} {s : State} (h : ∀ r, s.coin.inFlight = some r → r.coil ≠ k) :
    inFlightEntry k s = none := by
  unfold inFlightEntry
  split
  · next r x rest hr hl => exact if_neg (h r hr)
  · rfl

theorem confirmRelease_head {s : State} {x : Escrow} {rest : List Escrow} (hl : s.coin.escrow = x :: rest) :
    confirmRelease s = { s with coin := { s.coin with
      escrow := rest, inFlight := none, failedReturns := 0
      flap := if s.coin.flap = .window then (if s.coin.deadEnd = none then .idle else .settle) else s.coin.flap } } := by
  simp only [confirmRelease, State.onCoin, hl, List.tail_cons, Option.isNone_iff_eq_none]

theorem exec_vaultin {s : State} (h : s.start.rstHeld = false) (hr : s.start.phase ≠ .resetting)
    (hs : s.start.phase ≠ .scanning) :
    (∀ r x, inFlightEntry .collect s = some (r, x) →
      exec .vaultin s = .next (refreshPins (settle (confirmCoin x r.retry (confirmRelease s))))) ∧
    (inFlightEntry .collect s = none →
      exec .vaultin s = .next (refreshPins (s.onCoin fun c => { c with strayVault := bump 255 c.strayVault }))) := by
  have begun : coinPathAtRest s = false := by simp [coinPathAtRest, hr, hs]
  simp only [exec, execVaultin]
  exact ⟨fun r x e => complete_running h (by simp only [begun, e, Bool.false_eq_true, if_false]),
    fun e => complete_running h (by simp only [begun, e, Bool.false_eq_true, if_false])⟩

theorem recomputeFill_eq (s : State) : recomputeFill s = { s with
    vault := { s.vault with
      fill := s.vault.since.objects
      fillWarning := decide (s.req.cfg.capacity - s.req.cfg.margin ≤ s.vault.since.objects) }
    call := if s.req.cfg.capacity ≤ s.vault.since.objects
      then { s.call with reasons := s.call.reasons.put .vaultFull true } else s.call } := by
  by_cases full : s.req.cfg.capacity ≤ s.vault.since.objects
  · simp only [recomputeFill, if_pos full]; rfl
  · simp only [recomputeFill, if_neg full]; rfl

/-- What came in since the baseline, and what the baseline counts, are together what the lifetime counts. -/
theorem since_objects {v : Vault} (h : ∀ k : Fin 8, v.base.coins.get k ≤ v.life.coins.get k) (hs : v.base.stray ≤ v.life.stray) :
    v.since.objects + (v.base.coins.toList.sum + v.base.stray) = v.life.coins.toList.sum + v.life.stray := by
  have h0 : v.base.coins.v0 ≤ v.life.coins.v0 := h 0
  have h1 : v.base.coins.v1 ≤ v.life.coins.v1 := h 1
  have h2 : v.base.coins.v2 ≤ v.life.coins.v2 := h 2
  have h3 : v.base.coins.v3 ≤ v.life.coins.v3 := h 3
  have h4 : v.base.coins.v4 ≤ v.life.coins.v4 := h 4
  have h5 : v.base.coins.v5 ≤ v.life.coins.v5 := h 5
  have h6 : v.base.coins.v6 ≤ v.life.coins.v6 := h 6
  have h7 : v.base.coins.v7 ≤ v.life.coins.v7 := h 7
  simp only [Counts.objects, Vault.since, Eight.zip, Eight.toList, sinceCount, if_pos, h0, h1, h2, h3, h4, h5, h6, h7, hs,
    List.sum_cons, List.sum_nil]
  omega

theorem hasRoom_iff {p : Producer} {s : State} : hasRoom p s = true ↔ itemsOf p s.writer.queue < p.quota := by simp [hasRoom]

/-- A VAULT_UPDATE waits: one whose write has not begun, or one that is held. -/
def updateWaits (s : State) : Prop := .vaultUpdate ∈ s.writer.untaken ∨ .update ∈ s.vault.held

theorem isVaultUpdate_iff (i : Item) : isVaultUpdate i = true ↔ i = .vaultUpdate := by cases i <;> simp [isVaultUpdate]

theorem updateWaits_iff (s : State) : (s.writer.untaken.any isVaultUpdate ||
    s.vault.held.any fun h => decide (h = .update)) = true ↔ updateWaits s := by
  simp [updateWaits, isVaultUpdate_iff]

theorem handVaultUpdate_rests {s : State} (h : s.call.reasons.accountFault = true ∨ updateWaits s) : handVaultUpdate s = s := by
  rcases h with h | h
  · exact if_pos h
  · rw [handVaultUpdate, if_pos ((updateWaits_iff s).mpr h), ite_self]

theorem handVaultUpdate_joins {s : State} (h : s.call.reasons.accountFault = false) (hw : ¬ updateWaits s) :
    handVaultUpdate s = if hasRoom .vault s && s.vault.held == [] then pushItem .vaultUpdate s
      else s.onVault fun v => { v with held := v.held ++ [.update] } := by
  rw [handVaultUpdate, if_neg (by simp [State.blocked, Reasons.has, h]), if_neg (mt (updateWaits_iff s).mp hw)]

/-- Settles O19. -/
theorem vaultArrivals : Obligations.VaultArrivals := by
  unfold Obligations.VaultArrivals
  refine ⟨fun s h => ⟨fun k => ?_, fun hr hs => ⟨fun r x rest hi hk hl => ?_, fun hk => ?_⟩⟩, fun x retry s => ?_,
    fun s => ⟨recomputeFill_eq s, since_objects⟩, fun s => ?_⟩
  · simp only [exec, execVaultin]
    exact complete_running h (if_pos ((coinPathAtRest_iff s).mpr k))
  · rw [(exec_vaultin h hr hs).1 r x (inFlightEntry_some hi hk hl), confirmRelease_head hl]
  · exact (exec_vaultin h hr hs).2 (inFlightEntry_none fun r e => by simp [hk r e])
  · intro u
    refine ⟨fun k hx => ?_, fun hx => ?_⟩
    · simp only [confirmCoin, hx]; rfl
    · simp only [confirmCoin, hx]; rfl
  · intro waits
    refine ⟨handVaultUpdate_rests, fun ha hw => ?_⟩
    rw [handVaultUpdate_joins ha hw]
    simp only [Bool.and_eq_true, hasRoom_iff, beq_iff_eq]
    rfl

/-! ### Return events -/

theorem exec_returnEvent {s : State} (h : s.start.rstHeld = false)
    (hp : s.start.phase = .settling ∨ s.start.phase = .ready ∨ (s.start.phase = .purging ∧ s.coin.purgeStarted = false)) :
    exec .returnEvent s = .next (refreshPins (matchReturn s)) := by
  have begun : coinPathAtRest s = false := by rcases hp with hp | hp | ⟨hp, _⟩ <;> simp [coinPathAtRest, hp]
  have unpurged : ¬ (s.start.phase = .purging ∧ s.coin.purgeStarted = true) := by
    rcases hp with hp | hp | ⟨hp, hs⟩ <;> simp [*]
  simp only [exec, execReturnEvent]
  exact complete_running h (by simp only [begun, Bool.false_eq_true, unpurged, if_false])

theorem matchReturn_transit {s : State} {pre post : List Transit} {x : Transit} (hl : s.coin.transit = pre ++ x :: post)
    (hpre : ∀ y ∈ pre, y.st ≠ .rejected ∧ y.st ≠ .diverted) (hx : x.st = .rejected ∨ x.st = .diverted) :
    matchReturn s = s.onCoin fun c => { c with transit := pre ++ post, failedReturns := 0 } := by
  have returning := isReturning_iff.mpr hx
  have before : ∀ y ∈ pre, isReturning y = false := fun y hy => by
    rw [Bool.eq_false_iff, Ne, isReturning_iff, not_or]; exact hpre y hy
  simp only [matchReturn, hl, any_append_of_pos returning, if_true, State.onCoin, removeFirst_append before returning]

theorem not_any_isReturning {l : List Transit} (h : ∀ y ∈ l, y.st ≠ .rejected ∧ y.st ≠ .diverted) :
    l.any isReturning = false := by simpa [isReturning] using h

theorem matchReturn_escrow {s : State} {r : InFlight} {x : Escrow}
    (h : ∀ y ∈ s.coin.transit, y.st ≠ .rejected ∧ y.st ≠ .diverted) (hr : inFlightEntry .return_ s = some (r, x)) :
    matchReturn s = settle (confirmReturn x s) := by
  simp only [matchReturn, not_any_isReturning h, hr, Bool.false_eq_true, if_false]

theorem matchReturn_unmatched {s : State} (h : ∀ y ∈ s.coin.transit, y.st ≠ .rejected ∧ y.st ≠ .diverted)
    (hr : inFlightEntry .return_ s = none) : matchReturn s = unmatchedReturn s := by
  simp only [matchReturn, not_any_isReturning h, hr, Bool.false_eq_true, if_false]

theorem unmatchedReturn_eq (s : State) : unmatchedReturn s =
    if (s.inc.slots.get .chuteBlocked).isSome = true then addDetail .chuteBlocked s
    else s.onCoin fun c => { c with strayReturns := bump 255 c.strayReturns } := by
  unfold unmatchedReturn
  split <;> simp [*]

theorem confirmReturn_heldOver {x : Escrow} {s : State} (h : x.standing ≠ .credit) : confirmReturn x s = confirmRelease s :=
  if_neg h

/-- The state in which a returned CREDIT coin's value has been refunded and counted. -/
def refunded (x : Escrow) (s : State) : State :=
  (refund x.value (confirmRelease s)).onCoin fun c => { c with returnAll := c.returnAll.map (· + x.value) }

theorem confirmReturn_credit {x : Escrow} {s : State} (h : x.standing = .credit) : confirmReturn x s =
    if (refunded x s).coin.returnAll.isSome && !anyCredit (refunded x s).coin.escrow then finishReturnAll (refunded x s)
    else refunded x s := if_pos h

theorem refunded_eq {x : Escrow} {rest : List Escrow} {s : State} {n : Nat} (hl : s.coin.escrow = x :: rest)
    (hn : s.coin.returnAll = some n) : refunded x s = { s with
      coin := { s.coin with
        escrow := rest, inFlight := none, failedReturns := 0, returnAll := some (n + x.value)
        flap := if s.coin.flap = .window then (if s.coin.deadEnd = none then .idle else .settle) else s.coin.flap }
      acct := { s.acct with
        e := s.acct.e - x.value, refunded := satAdd 999999 s.acct.refunded x.value
        sat := s.acct.sat || decide (999999 < s.acct.refunded + x.value) } } := by
  rw [refunded, confirmRelease_head hl]
  simp only [refund, State.onAcct, State.onCoin, hn, Option.map_some]
  rfl

/-- Settles O20, in the order of the expected-return list. -/
theorem returnEventMatches : Obligations.ReturnEventMatches := by
  unfold Obligations.ReturnEventMatches
  refine fun s h => ⟨fun k => ?_, fun hp hs => ?_, fun hp => ⟨fun pre post x hl hpre hx => ?_, fun hn => ⟨fun r x rest hi hk hl => ?_,
    fun hk => ?_⟩⟩⟩
  · simp only [exec, execReturnEvent]
    exact complete_running h (if_pos ((coinPathAtRest_iff s).mpr k))
  · have begun : coinPathAtRest s = false := by simp [coinPathAtRest, hp]
    simp only [exec, execReturnEvent]
    refine (complete_running (t := s.onCoin fun c => { c with purged := bump 255 c.purged }) h ?_).trans rfl
    simp only [begun, Bool.false_eq_true, hp, hs, and_self, if_false, if_true]
  · rw [exec_returnEvent h hp, matchReturn_transit hl hpre hx]; rfl
  · intro gone
    rw [exec_returnEvent h hp, matchReturn_escrow hn (inFlightEntry_some hi hk hl)]
    refine ⟨fun hx => ?_, fun n hx ha => ?_⟩
    · rw [confirmReturn_heldOver hx, confirmRelease_head hl]
    · intro t
      have e : refunded x s = t := refunded_eq hl ha
      rw [confirmReturn_credit hx, e]
      refine ⟨fun k => ?_, fun k => ?_⟩
      · rw [if_neg (by simp [t, gone, anyCredit_iff.mpr k])]
      · have none_left : anyCredit rest = false := by simpa [anyCredit] using k
        rw [if_pos (by simp [t, gone, none_left])]
  · rw [exec_returnEvent h hp, matchReturn_unmatched hn (inFlightEntry_none fun r e => by simp [hk r e]), unmatchedReturn_eq]
    rfl

/-! ### The purge -/

/-- Settles O21. (The model's number of pulses has the plain name.) -/
theorem Settled.purgePulses : Obligations.PurgePulses := by
  unfold Obligations.PurgePulses
  refine fun s d h => ⟨fun hp hd => ⟨fun hw => ?_, fun hw => ?_⟩, fun hd => ?_, fun hd => ?_⟩
  · simp only [exec, execPurgePulseStart]
    refine (complete_running (t := startPurgePulse (s.reach d)) h ?_).trans rfl
    simp only [hp, hw, hd, and_self, if_true, onExpiry_some]
  · simp only [exec, execPurgePulseStart]
    exact complete_running h (if_neg (by simp [hw]))
  · simp only [exec, execPurgePulseEnd]
    exact (complete_expiry h hd).trans rfl
  · simp only [exec, execPurgeEnd]
    exact (complete_expiry h hd).trans rfl

end Sys2Proof.Machine
end

section
/-!
PROOFS. Door, box and service window (O41), the arithmetic of a tamper scan (O42), tamper scans, checks and contexts (O43).
-/

namespace Sys2Proof.Machine

/-! ### Doors and windows -/

theorem exec_doorOpen_again {s : State} (h : s.start.rstHeld = false) (ho : s.vault.doorOpen = true) :
    exec .doorOpen s = .next (refreshPins s) := by
  simp only [exec, execDoorOpen]
  exact complete_if (c := fun s => s.vault.doorOpen = true) h ho

theorem exec_doorOpen_early {s : State} (h : s.start.rstHeld = false) (ho : s.vault.doorOpen = false)
    (hp : s.start.phase ≠ .ready) :
    exec .doorOpen s = .next (refreshPins (s.onVault fun v => { v with doorOpen := true })) := by
  simp only [exec, execDoorOpen]
  exact complete_running h (by rw [if_neg (by simp [ho]), if_neg (by exact hp)])

theorem exec_doorOpen_ready {s : State} (h : s.start.rstHeld = false) (ho : s.vault.doorOpen = false)
    (hp : s.start.phase = .ready) :
    exec .doorOpen s = .next (refreshPins (settle (openDoor (s.onVault fun v => { v with doorOpen := true })))) := by
  simp only [exec, execDoorOpen]
  exact complete_running h (by rw [if_neg (by simp [ho]), if_pos (by exact hp)])

theorem openDoor_authorised {s : State} (h : s.vault.windowEnd.isSome = true) : openDoor s = beginAuthorised s := if_pos h

theorem openDoor_unauthorised {s : State} (h : s.vault.windowEnd = none) : openDoor s = beginUnauthorised s :=
  if_neg (by simp [h])

theorem exec_boxEvent_same {s : State} {p : Bool} (h : s.start.rstHeld = false) (hb : s.vault.boxPresent = p) :
    exec (.boxEvent p) s = .next (refreshPins s) := by
  simp only [exec, execBoxEvent]
  exact complete_running h (if_pos hb)

theorem exec_boxEvent_new {s : State} {p : Bool} (h : s.start.rstHeld = false) (hb : s.vault.boxPresent ≠ p) :
    exec (.boxEvent p) s = .next (refreshPins (boxInSession p (s.onVault fun v => { v with boxPresent := p }))) := by
  simp only [exec, execBoxEvent]
  exact complete_running h (if_neg hb)

theorem boxInSession_closed {s : State} (h : s.vault.session = .closed) (p : Bool) : boxInSession p s = s := by
  simp only [boxInSession, h]

theorem boxInSession_authorised {s : State} (h : s.vault.session = .authorised) (p : Bool) :
    boxInSession p s = s.onVault fun v => { v with boxPhase := nextBoxPhase p v.boxPhase } := by
  simp only [boxInSession, h]

theorem boxInSession_unauthorised {s : State} (h : s.vault.session = .unauthorised) (p : Bool) :
    boxInSession p s = if p = true then s else addDetail .vaultOpen s := by
  simp only [boxInSession, h]

theorem nextBoxPhase_eq (p : Bool) (x : BoxPhase) :
    nextBoxPhase p x = if p = false then .out else if x = .out then .exchanged else x := by cases p <;> rfl

theorem exec_serviceWindowExpiry {s : State} {d : Nat} (h : s.start.rstHeld = false) (hd : s.vault.windowEnd = some d) :
    exec .serviceWindowExpiry s = .next (refreshPins (settle (closeWindow (s.reach d)))) := by
  simp only [exec, execServiceWindowExpiry]
  exact complete_expiry h hd

theorem closeWindow_authorised {s : State} (h : s.vault.session = .authorised) : closeWindow s =
    openIncident .vaultOvertime (s.onVault fun v => { v with windowEnd := none, overtime := true }) := if_pos h

theorem closeWindow_rests {s : State} (h : s.vault.session ≠ .authorised) :
    closeWindow s = s.onVault fun v => { v with windowEnd := none } := if_neg h

theorem exec_doorClose_again {s : State} (h : s.start.rstHeld = false) (ho : s.vault.doorOpen = false) :
    exec .doorClose s = .next (refreshPins s) := by
  simp only [exec, execDoorClose]
  exact complete_running h (if_neg (by simp [ho]))

theorem exec_doorClose_early {s : State} (h : s.start.rstHeld = false) (ho : s.vault.doorOpen = true)
    (hp : s.start.phase ≠ .ready) :
    exec .doorClose s = .next (refreshPins (s.onVault fun v => { v with doorOpen := false })) := by
  simp only [exec, execDoorClose]
  exact complete_running h (by rw [if_pos ho, if_neg (by exact hp)])

theorem exec_doorClose_ready {s : State} (h : s.start.rstHeld = false) (ho : s.vault.doorOpen = true)
    (hp : s.start.phase = .ready) :
    exec .doorClose s = .next (refreshPins (settle (closeDoor (s.onVault fun v => { v with doorOpen := false })))) := by
  simp only [exec, execDoorClose]
  exact complete_running h (by rw [if_pos ho, if_pos (by exact hp)])

theorem endSession_rests {s : State}
    (h : s.vault.session = .closed ∨ (s.vault.session = .authorised ∧ s.vault.boxPhase ≠ .exchanged)) : endSession s = s := by
  rcases h with h | ⟨h, hx⟩
  · simp only [endSession, h]
  · simp only [endSession, h, if_neg hx]

theorem endSession_unauthorised {s : State} (h : s.vault.session = .unauthorised) :
    endSession s = endCondition .vaultOpen s := by simp only [endSession, h]

theorem endSession_collects {s : State} (h : s.vault.session = .authorised) (hx : s.vault.boxPhase = .exchanged) :
    endSession s = completeCollection s := by simp only [endSession, h, hx, if_true]

/-- The record of a collection at the door close, from the figures with the next sequence. -/
def doorCollection (s : State) : Collection :=
  ⟨next16 s.vault.collSeq, .collection, s.vault.epoch, s.stamp, true, s.vault.sat, s.vault.since,
    min 65535 (seconds s.vault.openedAt s.now)⟩

/-- The figures once the collection has made the lifetime counts the baseline. -/
def rebased (s : State) : State := recomputeFill { s with
  vault := { s.vault with collSeq := next16 s.vault.collSeq, base := s.vault.life }
  call := { s.call with reasons := { s.call.reasons with vaultFull := false } } }

theorem completeCollection_eq (s : State) : completeCollection s =
    handCollection (doorCollection s) ⟨(rebased s).vault.base, (rebased s).vault.epoch, (rebased s).vault.collSeq⟩
      { rebased s with vault := { (rebased s).vault with
          summary := some ⟨(doorCollection s).seq, (doorCollection s).since.value, .collection⟩ } } := rfl

/-- Settles O41. -/
theorem doorSessions : Obligations.DoorSessions := by
  unfold Obligations.DoorSessions
  refine ⟨fun s h => ⟨exec_doorOpen_again h, fun ho => ⟨fun hp => ?_, fun hp hw => ?_, fun hp hw => ?_⟩, fun p hb => ?_,
    fun p hb => ⟨fun hs => ?_, fun hs => ?_, fun hs => ?_⟩, fun d hd => ⟨fun hs => ?_, fun hs => ?_⟩⟩, fun s h => ?_⟩
  · exact exec_doorOpen_early h ho hp
  · rw [exec_doorOpen_ready h ho hp, openDoor_authorised (by exact hw)]; rfl
  · rw [exec_doorOpen_ready h ho hp, openDoor_unauthorised (by exact hw)]; rfl
  · exact exec_boxEvent_same h hb
  · rw [exec_boxEvent_new h hb, boxInSession_closed (by exact hs)]; rfl
  · rw [exec_boxEvent_new h hb, boxInSession_authorised (by exact hs), ← nextBoxPhase_eq]; rfl
  · rw [exec_boxEvent_new h hb, boxInSession_unauthorised (by exact hs)]; rfl
  · rw [exec_serviceWindowExpiry h hd, closeWindow_rests (by exact hs)]; rfl
  · rw [exec_serviceWindowExpiry h hd, closeWindow_authorised (by exact hs)]; rfl
  · intro t ended
    have closed (y : State) : (endOvertime y).onVault (fun v => { v with session := .closed, boxPhase := .inPlace }) =
        ended y := rfl
    refine ⟨exec_doorClose_again h, fun ho => ⟨exec_doorClose_early h ho, fun hp => ⟨fun hs => ?_, fun hs => ?_,
      fun hs hx => ?_⟩⟩⟩
    · rw [exec_doorClose_ready h ho hp, closeDoor, endSession_rests (by exact hs), closed]; rfl
    · rw [exec_doorClose_ready h ho hp, closeDoor, endSession_unauthorised (by exact hs), closed]; rfl
    · intro v r u
      rw [exec_doorClose_ready h ho hp, closeDoor, endSession_collects (by exact hs) (by exact hx), closed, completeCollection_eq]
      rfl

/-! ### The arithmetic of a scan -/

theorem approach_eq_fdiv (k r f : Nat) : (approach k r f : Int) = f + Int.fdiv ((r : Int) - f) (2 ^ k) := by
  have pos : (0 : Int) < 2 ^ k := by positivity
  have low : -(f : Int) ≤ ((r : Int) - f) / 2 ^ k := by
    rw [Int.le_ediv_iff_mul_le pos]
    nlinarith
  rw [approach, Int.fdiv_eq_ediv_of_nonneg _ pos.le, Int.toNat_of_nonneg (by omega)]

theorem compensate_eq (w f : Nat) (g : Int) :
    compensate w f g = (max 0 (min 65535 ((f : Int) - Int.tdiv (g * w) 8))).toNat := by
  unfold compensate countTop
  omega

theorem levelStep_rises {n now : Nat} {t : Thresholds} {d : Int} {x : Channel} (hx : x.level ≠ .forced)
    (hd : (entryAbove t x.level : Int) ≤ d) (hn : n ≤ x.rising + 1) : levelStep n now t d x =
      { x with d := d, level := x.level.up, rising := 0, falling := 0,
               haltStart := if x.level = .quiet then some now else x.haltStart } := by
  simp only [levelStep, hx, hd, ne_eq, not_false_eq_true, and_self, if_true, hn]

/-- Between two thresholds no test counts. -/
theorem levelStep_counts {n now : Nat} {t : Thresholds} {d : Int} {x : Channel} (hr : ¬ (x.level ≠ .forced ∧
      (entryAbove t x.level : Int) ≤ d ∧ n ≤ x.rising + 1)) (hf : ¬ (x.level ≠ .quiet ∧ d < (exitThreshold t x.level : Int) ∧
      n ≤ x.falling + 1)) (hn : 1 ≤ n) : levelStep n now t d x =
    { x with d := d
             rising := if x.level ≠ .forced ∧ (entryAbove t x.level : Int) ≤ d then x.rising + 1 else 0
             falling := if x.level ≠ .quiet ∧ d < (exitThreshold t x.level : Int) then x.falling + 1 else 0 } := by
  unfold levelStep
  rw [if_neg, if_neg]
  · rintro ⟨hx, hk⟩
    split at hk
    · next k => exact hf ⟨hx, k.2, hk⟩
    · omega
  · rintro ⟨hx, hk⟩
    split at hk
    · next k => exact hr ⟨hx, k.2, hk⟩
    · omega

theorem levelStep_falls {n now : Nat} {t : Thresholds} {d : Int} {x : Channel} (hx : x.level ≠ .quiet) (h : 1 ≤ n)
    (hr : ¬ (x.level ≠ .forced ∧ (entryAbove t x.level : Int) ≤ d)) (hd : d < (exitThreshold t x.level : Int))
    (hn : n ≤ x.falling + 1) : levelStep n now t d x =
      { x with d := d, level := x.level.down, rising := 0, falling := 0,
               haltStart := if x.level.down = .quiet then none else x.haltStart } := by
  unfold levelStep
  rw [if_neg, if_pos ⟨hx, by rwa [if_pos ⟨hx, hd⟩]⟩]
  rintro ⟨-, hk⟩
  rw [if_neg hr] at hk
  omega

/-- A scan at the next level's entry threshold. -/
theorem levelStep_up {n now : Nat} {t : Thresholds} {d : Int} {x : Channel} {a : Level} (h : 1 ≤ n) (hl : x.level = a)
    (hx : a ≠ .forced) (hd : (entryAbove t a : Int) ≤ d) (hf : ¬ (a ≠ .quiet ∧ d < (exitThreshold t a : Int))) :
    (n ≤ x.rising + 1 → (levelStep n now t d x).level = a.up ∧ (levelStep n now t d x).rising = 0 ∧
      (levelStep n now t d x).falling = 0) ∧
    (x.rising + 1 < n → (levelStep n now t d x).level = x.level ∧ (levelStep n now t d x).rising = x.rising + 1 ∧
      (levelStep n now t d x).falling = 0) := by
  subst hl
  refine ⟨fun hn => ?_, fun hn => ?_⟩
  · rw [levelStep_rises hx hd hn]
    exact ⟨rfl, rfl, rfl⟩
  · rw [levelStep_counts (by omega) (fun k => hf ⟨k.1, k.2.1⟩) h]
    exact ⟨rfl, if_pos ⟨hx, hd⟩, if_neg hf⟩

/-- A scan below the level's own exit threshold. -/
theorem levelStep_down {n now : Nat} {t : Thresholds} {d : Int} {x : Channel} {a : Level} (h : 1 ≤ n) (hl : x.level = a)
    (hx : a ≠ .quiet) (hd : d < (exitThreshold t a : Int)) (hr : ¬ (a ≠ .forced ∧ (entryAbove t a : Int) ≤ d)) :
    (n ≤ x.falling + 1 → (levelStep n now t d x).level = a.down ∧ (levelStep n now t d x).rising = 0 ∧
      (levelStep n now t d x).falling = 0) ∧
    (x.falling + 1 < n → (levelStep n now t d x).level = x.level ∧ (levelStep n now t d x).falling = x.falling + 1 ∧
      (levelStep n now t d x).rising = 0) := by
  subst hl
  refine ⟨fun hn => ?_, fun hn => ?_⟩
  · rw [levelStep_falls hx h hr hd hn]
    exact ⟨rfl, rfl, rfl⟩
  · rw [levelStep_counts (fun k => hr ⟨k.1, k.2.1⟩) (by omega) h]
    exact ⟨rfl, if_pos ⟨hx, hd⟩, if_neg hr⟩

/-- A scan between the two. -/
theorem levelStep_hold {n now : Nat} {t : Thresholds} {d : Int} {x : Channel} {a : Level} (h : 1 ≤ n) (hl : x.level = a)
    (hr : ¬ (a ≠ .forced ∧ (entryAbove t a : Int) ≤ d)) (hf : ¬ (a ≠ .quiet ∧ d < (exitThreshold t a : Int))) :
    (levelStep n now t d x).level = x.level ∧ (levelStep n now t d x).rising = 0 ∧ (levelStep n now t d x).falling = 0 := by
  subst hl
  rw [levelStep_counts (fun k => hr ⟨k.1, k.2.1⟩) (fun k => hf ⟨k.1, k.2.1⟩) h]
  exact ⟨rfl, if_neg hr, if_neg hf⟩

/-- The level rises, falls or stays. -/
theorem levelStep_cases (n now : Nat) (t : Thresholds) (d : Int) (x : Channel) :
    (x.level ≠ .forced ∧ levelStep n now t d x = { x with
        d := d, level := x.level.up, rising := 0, falling := 0
        haltStart := if x.level = .quiet then some now else x.haltStart }) ∨
    (x.level ≠ .quiet ∧ levelStep n now t d x = { x with
        d := d, level := x.level.down, rising := 0, falling := 0
        haltStart := if x.level.down = .quiet then none else x.haltStart }) ∨
    ∃ r f, levelStep n now t d x = { x with d := d, rising := r, falling := f } := by
  unfold levelStep
  extract_lets rising falling
  split
  · next k => exact .inl ⟨k.1, rfl⟩
  · split
    · next k => exact .inr (.inl ⟨k.1, rfl⟩)
    · exact .inr (.inr ⟨_, _, rfl⟩)

/-- The halt timer starts as the channel leaves QUIET and stops as it comes back. -/
theorem levelStep_haltStart (n now : Nat) (t : Thresholds) (d : Int) (x : Channel) : (levelStep n now t d x).haltStart =
    if x.level = .quiet ∧ (levelStep n now t d x).level ≠ .quiet then some now
    else if x.level ≠ .quiet ∧ (levelStep n now t d x).level = .quiet then none else x.haltStart := by
  rcases levelStep_cases n now t d x with ⟨hx, e⟩ | ⟨hx, e⟩ | ⟨r, f, e⟩
  · rw [e]
    cases hl : x.level <;> simp [Level.up]
  · rw [e]
    cases hl : x.level <;> simp [Level.down]
    exact absurd hl hx
  · rw [e]
    cases hl : x.level <;> simp

theorem exitOf_le (t : Nat) : exitOf t ≤ t := Nat.sub_le t (t / 8)

/-- Settles O42. -/
theorem scanArithmetic : Obligations.ScanArithmetic := by
  unfold Obligations.ScanArithmetic
  refine ⟨approach_eq_fdiv, compensate_eq, fun n now t d x h hnc hcf => ?_⟩
  have near := exitOf_le t.near
  have contact := exitOf_le t.contact
  have forced := exitOf_le t.forced
  intro y up down hold
  refine ⟨fun hx => ⟨fun hd => ?_, fun hd => ?_⟩, fun hx => ⟨fun hd => ?_, fun hd => ?_, fun lo hi => ?_⟩,
    fun hx => ⟨fun hd => ?_, fun hd => ?_, fun lo hi => ?_⟩, fun hx => ⟨fun hd => ?_, fun lo => ?_⟩,
    levelStep_haltStart n now t d x⟩
  · exact levelStep_up h hx (by simp) hd (by simp)
  · exact hx ▸ levelStep_hold h hx (fun k => Int.not_le.mpr hd k.2) (by simp)
  · exact levelStep_up h hx (by simp) hd (by simp only [exitThreshold]; omega)
  · exact levelStep_down h hx (by simp) hd (fun k => by have := k.2; simp only [entryAbove, exitOf] at *; omega)
  · exact levelStep_hold h hx (fun k => Int.not_le.mpr hi k.2) (fun k => Int.not_lt.mpr lo k.2)
  · exact levelStep_up h hx (by simp) hd (by simp only [exitThreshold]; omega)
  · exact levelStep_down h hx (by simp) hd (fun k => by have := k.2; simp only [entryAbove, exitOf] at *; omega)
  · exact levelStep_hold h hx (fun k => Int.not_le.mpr hi k.2) (fun k => Int.not_lt.mpr lo k.2)
  · exact levelStep_down h hx (by simp) hd (by simp)
  · exact hx ▸ levelStep_hold h hx (by simp) (fun k => Int.not_lt.mpr lo k.2)

/-! ### Scans, arm checks, contexts -/

theorem exec_tamperScan {s : State} {l : Nat} (raw : List (BitVec 16)) (h : s.start.rstHeld = false)
    (hl : s.tamper.lastScan = some l) : exec (.tamperScan raw) s =
      .next (refreshPins (settle (takeScan raw (s.reach (l + s.req.cfg.scanInterval))))) := by
  simp only [exec, execTamperScan]
  exact complete_expiry h (by simp only [scanDue, hl, Option.map_some])

/-- The first seven scans of settling. -/
theorem takeScan_settling {s : State} (raw : List (BitVec 16)) (h : s.tamper.settling = .settling)
    (hn : s.tamper.settleCount < 7) :
    takeScan raw s = settlingScan raw (s.onTamper fun t => { t with lastScan := some s.now }) := by
  have scanned : scan raw s = settlingScan raw (s.onTamper fun t => { t with lastScan := some s.now }) := by
    simp only [scan, h]
  rw [takeScan, scanned, if_neg]
  rintro ⟨-, k⟩
  rw [settlingScan, if_pos (by show s.tamper.settleCount + 1 < 8; omega)] at k
  exact absurd (h.symm.trans k) (by decide)

/-- The eighth, at which the unit is RUNNING. -/
theorem takeScan_settled {s : State} (raw : List (BitVec 16)) (h : s.tamper.settling = .settling)
    (hn : s.tamper.settleCount = 7) :
    takeScan raw s = enterReady (settlingScan raw (s.onTamper fun t => { t with lastScan := some s.now })) := by
  have scanned : scan raw s = settlingScan raw (s.onTamper fun t => { t with lastScan := some s.now }) := by
    simp only [scan, h]
  rw [takeScan, scanned, if_pos]
  refine ⟨h, ?_⟩
  rw [settlingScan, if_neg (by show ¬ s.tamper.settleCount + 1 < 8; omega)]
  rfl

theorem takeScan_running {s : State} (raw : List (BitVec 16)) (h : s.tamper.settling = .running) :
    takeScan raw s = runningScan raw (s.onTamper fun t => { t with lastScan := some s.now }) := by
  rw [takeScan, if_neg (by simp [h])]
  simp only [scan, h]

theorem settlingScan_first {s : State} (raw : List (BitVec 16)) (h : s.tamper.settleCount < 7) : settlingScan raw s =
    s.onTamper fun t => { t with
      settleCount := s.tamper.settleCount + 1
      ref := { t.ref with
        raw := rawAt raw 0, f := settleFilter s.req.cfg.filterShift (s.tamper.settleCount + 1) (rawAt raw 0) t.ref.f }
      ch := s.tamper.ch.zip (fun x r => { x with
        raw := r, f := settleFilter s.req.cfg.filterShift (s.tamper.settleCount + 1) r x.f }) (rawSix raw) } :=
  if_pos (by omega)

theorem settlingScan_last {s : State} (raw : List (BitVec 16)) (h : s.tamper.settleCount = 7) : settlingScan raw s =
    s.onTamper fun t => { t with
      ref := { t.ref with
        raw := rawAt raw 0, f := settleFilter s.req.cfg.filterShift (s.tamper.settleCount + 1) (rawAt raw 0) t.ref.f
        b := settleFilter s.req.cfg.filterShift (s.tamper.settleCount + 1) (rawAt raw 0) t.ref.f }
      ch := (s.tamper.ch.zip (fun x r => { x with
        raw := r, f := settleFilter s.req.cfg.filterShift (s.tamper.settleCount + 1) r x.f }) (rawSix raw)).map fun x =>
          { x with fc := x.f, b := x.f, d := 0, level := .quiet, rising := 0, falling := 0, haltStart := none }
      loiter := .stopped, settling := .running, settleCount := 0, inForce := t.context, settleEnd := none } :=
  if_neg (by omega)

theorem settleFilter_next (k n raw f : Nat) : settleFilter k (n + 1) raw f = if n = 0 then raw else approach k raw f := by
  simp [settleFilter]

theorem reaches_iff (l : Level) (a : ArmLevel) : l.reaches a = true ↔
    (a = .contact ∧ (l = .contact ∨ l = .forced)) ∨ (a = .forced ∧ l = .forced) := by
  cases l <;> cases a <;> decide

theorem armCheck_reached {s : State} {i : Fin 6}
    (h : (s.tamper.ch.get i).level.reaches (armIn (s.req.cfg.arms.get i) s.tamper.inForce) = true) :
    armCheck i s = openIncident (channelKind i) (onChannel i (fun y => { y with raised := true }) s) := if_pos h

theorem armCheck_ends {s : State} {i : Fin 6}
    (h : ¬ (s.tamper.ch.get i).level.reaches (armIn (s.req.cfg.arms.get i) s.tamper.inForce) = true)
    (hr : (s.tamper.ch.get i).raised = true) :
    armCheck i s = endCondition (channelKind i) (onChannel i (fun y => { y with raised := false }) s) := by
  rw [armCheck, if_neg h, if_pos hr]

theorem armCheck_rests {s : State} {i : Fin 6}
    (h : ¬ (s.tamper.ch.get i).level.reaches (armIn (s.req.cfg.arms.get i) s.tamper.inForce) = true)
    (hr : (s.tamper.ch.get i).raised = false) : armCheck i s = s := by
  rw [armCheck, if_neg h, if_neg (by simp [hr])]

theorem openIncident_tamper (k : IncidentKind) (s : State) : (openIncident k s).tamper = s.tamper := by
  obtain ⟨i, d, e⟩ := openIncident_frame k s
  rw [e]

theorem endCondition_tamper (k : IncidentKind) (s : State) : (endCondition k s).tamper = s.tamper := by
  obtain ⟨i, e⟩ := endCondition_frame k s
  rw [e]

/-- An arm check marks its channel and changes no level. -/
theorem armCheck_level (i j : Fin 6) (s : State) :
    ((armCheck i s).tamper.ch.get j).level = (s.tamper.ch.get j).level := by
  have marked (v : Bool) : ((onChannel i (fun y => { y with raised := v }) s).tamper.ch.get j).level =
      (s.tamper.ch.get j).level := by
    show ((s.tamper.ch.put i _).get j).level = _
    fin_cases i <;> fin_cases j <;> rfl
  unfold armCheck
  dsimp only
  split
  · rw [openIncident_tamper, marked]
  · split
    · rw [endCondition_tamper, marked]
    · rfl

/-- The channels of `s` stand at the levels of `ch`. -/
def AtLevels (ch : Six Channel) (s : State) : Prop := ∀ j, (s.tamper.ch.get j).level = (ch.get j).level

theorem checkChanged_eq {ch was : Six Channel} {s : State} (h : AtLevels ch s) (i : Fin 6) : checkChanged was i s =
    if (ch.get i).level = (was.get i).level then s else armCheck i s := by
  rw [checkChanged, h i]
  exact if_congr eq_comm rfl rfl

theorem atLevels_checkChanged {ch was : Six Channel} {s : State} (h : AtLevels ch s) (i : Fin 6) :
    AtLevels ch (checkChanged was i s) := by
  intro j
  unfold checkChanged
  split
  · exact h j
  · rw [armCheck_level, h j]

/-- The checks of a scan that leaves the channels at `ch`: each compares with that scan alone. -/
theorem checkChanged_six {ch was : Six Channel} {s : State} (h : AtLevels ch s) :
    checkChanged was 5 (checkChanged was 4 (checkChanged was 3 (checkChanged was 2 (checkChanged was 1
      (checkChanged was 0 s))))) =
    let check (i : Fin 6) (y : State) : State := if (ch.get i).level = (was.get i).level then y else armCheck i y
    check 5 (check 4 (check 3 (check 2 (check 1 (check 0 s))))) := by
  have a0 := atLevels_checkChanged (was := was) h 0
  have a1 := atLevels_checkChanged (was := was) a0 1
  have a2 := atLevels_checkChanged (was := was) a1 2
  have a3 := atLevels_checkChanged (was := was) a2 3
  have a4 := atLevels_checkChanged (was := was) a3 4
  rw [checkChanged_eq a4, checkChanged_eq a3, checkChanged_eq a2, checkChanged_eq a1, checkChanged_eq a0, checkChanged_eq h]

theorem runningScan_eq (raw : List (BitVec 16)) (s : State) (ch : Six Channel)
    (hc : ch = ((s.tamper.ch.zip (fun x r => (x, r)) (rawSix raw)).zip (fun p t => scanChannel s.req.cfg s.now
      ((approach s.req.cfg.filterShift (rawAt raw 0) s.tamper.ref.f : Int) - s.tamper.ref.b) t p.2 p.1)
      s.req.cfg.thresholds)) :
    runningScan raw s =
      let check (i : Fin 6) (y : State) : State :=
        if (ch.get i).level = (s.tamper.ch.get i).level then y else armCheck i y
      loiterRefresh (check 5 (check 4 (check 3 (check 2 (check 1 (check 0 { s with tamper := { s.tamper with
        ref := { s.tamper.ref with
          raw := rawAt raw 0, f := approach s.req.cfg.filterShift (rawAt raw 0) s.tamper.ref.f
          b := approach s.req.cfg.refShift (approach s.req.cfg.filterShift (rawAt raw 0) s.tamper.ref.f) s.tamper.ref.b }
        ch := ch } })))))) := by
  subst hc
  exact congrArg loiterRefresh (checkChanged_six fun _ => rfl)

theorem loiterHolds_iff (s : State) : loiterHolds s = true ↔
    ((s.tamper.ch.get 0).level = .contact ∨ (s.tamper.ch.get 0).level = .forced) ∧ s.tamper.inForce = .idle ∧
      s.tamper.settling = .running := by
  have high (l : Level) : 2 ≤ l.rank ↔ l = .contact ∨ l = .forced := by cases l <;> decide
  simp only [loiterHolds, Bool.and_eq_true, decide_eq_true_eq, beq_iff_eq, and_assoc]
  rw [high]
  rfl

theorem formContext_eq (s : State) : formContext s = if s.vault.windowEnd.isSome = true then .service
    else if s.call.hook = .off ∨ s.line.owner ≠ .none then .inUse else .idle := by
  simp [formContext]

theorem contextStage_early {s : State} (h : formContext s ≠ s.tamper.context) (hr : s.tamper.settling ≠ .running) :
    contextStage s = s.onTamper fun t => { t with context := formContext s, inForce := formContext s, settleEnd := none } := by
  rw [contextStage, if_neg h, if_pos hr]

theorem contextStage_idle {s : State} (h : formContext s ≠ s.tamper.context) (hr : s.tamper.settling = .running)
    (hi : formContext s = .idle) :
    contextStage s = s.onTamper fun t => { t with context := formContext s, settleEnd := some (s.now + settlingTime) } := by
  rw [contextStage, if_neg h, if_neg (by simp [hr]), if_pos hi]

theorem contextStage_other {s : State} (h : formContext s ≠ s.tamper.context) (hr : s.tamper.settling = .running)
    (hi : formContext s ≠ .idle) : contextStage s = loiterRefresh (checkAll
      (s.onTamper fun t => { t with context := formContext s, inForce := formContext s, settleEnd := none })) := by
  rw [contextStage, if_neg h, if_neg (by simp [hr]), if_neg hi]

theorem exec_haltTimeout {s : State} {i : Fin 6} {t : Nat} (h : s.start.rstHeld = false)
    (ht : (s.tamper.ch.get i).haltStart = some t) : exec (.haltTimeout i) s =
      .next (refreshPins (settle (reseedChannel i (s.reach (t + 1000 * s.req.cfg.haltLimit))))) := by
  simp only [exec, execHaltTimeout]
  exact complete_running h (by simp only [ht])

theorem exec_contextSettlingExpiry {s : State} {d : Nat} (h : s.start.rstHeld = false) (hd : s.tamper.settleEnd = some d) :
    exec .contextSettlingExpiry s = .next (refreshPins (settle (settleContext (s.reach d)))) := by
  simp only [exec, execContextSettlingExpiry]
  exact complete_expiry h hd

theorem exec_loiterTimeout {s : State} {t : Nat} (h : s.start.rstHeld = false) (ht : s.tamper.loiter = .running t) :
    exec .loiterTimeout s = .next (refreshPins (settle (probeTrigger (s.reach (t + 1000 * s.req.cfg.loiter))))) := by
  simp only [exec, execLoiterTimeout]
  exact complete_running h (by simp only [ht])

theorem loiterRefresh_begins {s : State} (h : loiterHolds s = true) (hl : s.tamper.loiter = .stopped) :
    loiterRefresh s = s.onTamper fun t => { t with loiter := .running s.now } := by
  rw [loiterRefresh, if_pos h, if_pos hl]

theorem loiterRefresh_goes_on {s : State} (h : loiterHolds s = true) (hl : s.tamper.loiter ≠ .stopped) :
    loiterRefresh s = s := by
  rw [loiterRefresh, if_pos h, if_neg hl]

theorem loiterRefresh_ends {s : State} (h : ¬ loiterHolds s = true) : loiterRefresh s =
    if s.tamper.probe = true then
      endCondition .slotProbe (s.onTamper fun x => { x with loiter := .stopped, probe := false })
    else s.onTamper fun x => { x with loiter := .stopped, probe := false } := if_neg h

theorem reseedSet_rests {s : State} (h : s.tamper.settling ≠ .running) (set_ : Nat) : reseedSet set_ s = s := if_pos h

theorem reseedSet_running {s : State} (h : s.tamper.settling = .running) (set_ : Nat) : reseedSet set_ s =
    let named (i : Nat) (f : State → State) (u : State) : State := if set_.testBit i = true then f u else u
    named 6 (reseedChannel 5) (named 5 (reseedChannel 4) (named 4 (reseedChannel 3) (named 3 (reseedChannel 2)
      (named 2 (reseedChannel 1) (named 1 (reseedChannel 0) (named 0 reseedReference s)))))) := if_neg (by simp [h])

/-- Settles O43. -/
theorem tamperTimers : Obligations.TamperTimers := by
  unfold Obligations.TamperTimers
  refine ⟨fun s h => ⟨fun raw l hl => ⟨fun hs hn => ?_, fun hs hn => ?_, fun hs => ?_⟩, fun i t ht => ?_, fun d hd => ?_,
    fun t ht => ?_⟩, fun raw s => ?_, fun i s => ?_, fun s => ?_, fun s => ?_, fun set_ s => ?_⟩
  · rw [exec_tamperScan raw h hl, takeScan_settling raw (by exact hs) (by exact hn), settlingScan_first raw (by exact hn)]
    simp only [settleFilter_next]
    rfl
  · rw [exec_tamperScan raw h hl, takeScan_settled raw (by exact hs) (by exact hn), settlingScan_last raw (by exact hn)]
    simp only [settleFilter_next]
    rfl
  · rw [exec_tamperScan raw h hl, takeScan_running raw (by exact hs)]; rfl
  · rw [exec_haltTimeout h ht]; rfl
  · rw [exec_contextSettlingExpiry h hd]; rfl
  · rw [exec_loiterTimeout h ht]; rfl
  · intro cfg r f0 c check
    exact runningScan_eq raw s ⟨c 0, c 1, c 2, c 3, c 4, c 5⟩ rfl
  · intro x row arm reached marked
    have reach : x.level.reaches (armIn row s.tamper.inForce) = true ↔ reached := reaches_iff _ _
    refine ⟨by fin_cases i <;> rfl, fun hr => ?_, fun hr hx => ?_, fun hr hx => ?_⟩
    · exact armCheck_reached (reach.mpr hr)
    · exact armCheck_ends (mt reach.mp hr) hx
    · exact armCheck_rests (mt reach.mp hr) hx
  · intro near1 holds off
    have held : loiterHolds s = true ↔ holds := loiterHolds_iff s
    refine ⟨rfl, fun hh hl => ?_, fun hh hl => ?_, fun hh hp => ?_, fun hh hp => ?_⟩
    · exact loiterRefresh_begins (held.mpr hh) hl
    · exact loiterRefresh_goes_on (held.mpr hh) hl
    · rw [loiterRefresh_ends (mt held.mp hh), if_neg (by simp [hp])]; rfl
    · rw [loiterRefresh_ends (mt held.mp hh), if_pos hp]; rfl
  · intro c
    have formed : formContext s = c := formContext_eq s
    rw [← formed]
    exact ⟨contextStage_rest, contextStage_early, contextStage_idle, contextStage_other⟩
  · exact ⟨fun hs => reseedSet_rests hs set_, fun hs => reseedSet_running hs set_⟩

end Sys2Proof.Machine
end

section
/-!
PROOFS. The incident table's events (O44) and the report dialler's attempts, message, kiss-off and failures (O45).
-/

namespace Sys2Proof.Machine

/-! ### Events of the incident table -/

theorem addDetail_none {s : State} {k : IncidentKind} (h : s.inc.slots.get k = none) : addDetail k s = s := by
  simp only [addDetail, h]

theorem addDetail_some {s : State} {k : IncidentKind} {x : Slot} (h : s.inc.slots.get k = some x) :
    addDetail k s = putSlot k (some { x with detailCount := bump 255 x.detailCount }) s := by simp only [addDetail, h]

theorem addDetailMoney_none {s : State} {k : IncidentKind} (h : s.inc.slots.get k = none) (v : Nat) :
    addDetailMoney k v s = s := by simp only [addDetailMoney, h]

theorem addDetailMoney_some {s : State} {k : IncidentKind} {x : Slot} (h : s.inc.slots.get k = some x) (v : Nat) :
    addDetailMoney k v s = putSlot k (some { x with detailMoney := min 999999 (x.detailMoney + v) }) s := by
  simp only [addDetailMoney, h, satAdd_eq_min]

theorem PerKind.get_put {α : Type} (e : PerKind α) (j k : IncidentKind) (a : α) :
    (e.put k a).get j = if j = k then a else e.get j := by
  by_cases h : j = k
  · rw [if_pos h, h, PerKind.get_put_self]
  · rw [if_neg h, PerKind.get_put_of_ne _ _ h]

theorem stringDetail_none {s : State} (h : s.inc.slots.get .stringing = none) :
    stringDetail s = addDetail .stringing (openIncident .stringing s) := by simp only [stringDetail, h]

theorem stringDetail_used {s : State} (h : s.inc.slots.get .stringing ≠ none) : stringDetail s = addDetail .stringing s := by
  obtain ⟨x, hx⟩ := Option.ne_none_iff_exists'.mp h
  simp only [stringDetail, hx]

theorem endsAtOnce_iff (k : IncidentKind) : endsAtOnce k = true ↔ k = .slotJam ∨ k = .slotForced ∨ k = .stringing := by
  cases k <;> decide

theorem startsSeries_iff (d : DialState) : d.startsSeries = true ↔ d = .idle ∨ d = .retryWait := by
  simp [DialState.startsSeries]

theorem noteQualifying_eq (q : Bool) (s : State) : noteQualifying q s = s.onDial fun d =>
    if q = true then (if d.st = .idle ∨ d.st = .retryWait then { d with react := true } else { d with attempts := 0 }) else d := by
  unfold noteQualifying
  cases q
  · rfl
  · simp only [startsSeries_iff, Bool.not_true, Bool.false_eq_true, if_false, if_true]

theorem freshSlot_eq (s : State) (k : IncidentKind) (sev : Nat) : freshSlot s k sev =
    let brief := k = .slotJam ∨ k = .slotForced ∨ k = .stringing
    ⟨s.inc.nextSeq, sev, s.stamp, 1, decide (¬ brief), if brief then some (s.now + 30000) else none, false,
      if sev = 1 then .notRequired else .unreported, false, 0, 0⟩ := by
  simp only [freshSlot, ← endsAtOnce_iff, Bool.not_eq_true, Bool.decide_eq_false, quietTime]

theorem mergedSlot_eq (s : State) (k : IncidentKind) (x : Slot) : mergedSlot s k x =
    let brief := k = .slotJam ∨ k = .slotForced ∨ k = .stringing
    { x with
      triggers := bump 255 x.triggers, active := decide (¬ brief)
      quietEnd := if brief then some (s.now + 30000) else none
      closedPending := false
      report := if 2 ≤ x.severity ∧ (x.report = .reported ∨ x.report = .reportFailed) then .unreported else x.report
      renewed := x.renewed || (decide (2 ≤ x.severity) && decide (x.report = .marked)) } := by
  simp only [mergedSlot, ← endsAtOnce_iff, Bool.not_eq_true, Bool.decide_eq_false, quietTime, renewReport]
  rfl

/-- The slots that become UNREPORTED again. -/
theorem renewReport_ne (x : Slot) : (renewReport x != x.report) = true ↔
    2 ≤ x.severity ∧ (x.report = .reported ∨ x.report = .reportFailed) := by
  rw [renewReport, bne_iff_ne]
  split
  · next h =>
    refine ⟨fun _ => h, fun _ k => ?_⟩
    rcases h.2 with e | e <;> exact absurd (k.trans e) (by decide)
  · next h => exact ⟨fun k => absurd rfl k, fun k => absurd k h⟩

theorem openIncident_unkept {s : State} {k : IncidentKind} (h : s.req.cfg.severity.get k = 0) : openIncident k s = s :=
  if_pos h

theorem openIncident_fills {s : State} {k : IncidentKind} (h : s.req.cfg.severity.get k ≠ 0)
    (hk : s.inc.slots.get k = none) : openIncident k s = noteQualifying (decide (2 ≤ s.req.cfg.severity.get k))
      { s with inc := { s.inc with
          slots := s.inc.slots.put k (some (freshSlot s k (s.req.cfg.severity.get k))), nextSeq := next16 s.inc.nextSeq } } := by
  simp only [openIncident, if_neg h, hk]
  rfl

theorem openIncident_merges {s : State} {k : IncidentKind} {x : Slot} (h : s.req.cfg.severity.get k ≠ 0)
    (hk : s.inc.slots.get k = some x) : openIncident k s =
      noteQualifying (renewReport x != x.report) (putSlot k (some (mergedSlot s k x)) s) := by
  simp only [openIncident, if_neg h, hk]

theorem endCondition_none {s : State} {k : IncidentKind} (h : s.inc.slots.get k = none) : endCondition k s = s := by
  simp only [endCondition, h]

theorem endCondition_ended {s : State} {k : IncidentKind} {x : Slot} (h : s.inc.slots.get k = some x)
    (ha : x.active = false) : endCondition k s = s := by simp only [endCondition, h, ha, Bool.false_eq_true, if_false]

theorem endCondition_active {s : State} {k : IncidentKind} {x : Slot} (h : s.inc.slots.get k = some x)
    (ha : x.active = true) :
    endCondition k s = putSlot k (some { x with active := false, quietEnd := some (s.now + quietTime) }) s := by
  simp only [endCondition, h, ha, if_true]

/-- Settles O44. -/
theorem openEventsFillAndMerge : Obligations.OpenEventsFillAndMerge := by
  unfold Obligations.OpenEventsFillAndMerge
  refine ⟨fun k v s => ⟨fun h => ⟨addDetail_none h, addDetailMoney_none h v⟩, fun x h =>
    ⟨addDetail_some h, addDetailMoney_some h v⟩, fun j y => PerKind.get_put _ j k y, stringDetail_none, stringDetail_used⟩,
    fun k s => ⟨openIncident_unkept, fun h hk => ?_, fun x h hk => ?_, endCondition_none, fun x => endCondition_ended,
      fun x => endCondition_active⟩⟩
  · rw [openIncident_fills h hk, noteQualifying_eq, freshSlot_eq]
    simp only [decide_eq_true_eq]
    rfl
  · rw [openIncident_merges h hk, noteQualifying_eq, mergedSlot_eq]
    simp only [renewReport_ne]
    rfl

/-! ### The beginning of an attempt -/

/-- The attempt asks for the line (R151, R97). -/
def attemptAsked (s : State) : State := lineGrant { s with
  dial := { s.dial with
    retryEnd := none, number := s.req.cfg.reportNumber, station := s.req.cfg.stationId, st := .requesting }
  line := { s.line with reportReq := true } }

theorem attemptBegin_unnumbered {s : State} (h : s.req.cfg.reportNumber = []) : attemptBegin s =
    attemptFail .noNumber { s with dial := { s.dial with
      retryEnd := none, number := s.req.cfg.reportNumber, station := s.req.cfg.stationId } } := if_pos h

theorem attemptBegin_numbered {s : State} (h : s.req.cfg.reportNumber ≠ []) : attemptBegin s = askPreempt (attemptAsked s) :=
  if_neg h

theorem reactStage_begins {s : State} (h : s.dial.react = true) (hs : s.dial.st = .idle ∨ s.dial.st = .retryWait) :
    reactStage s = freshSeries (s.onDial fun d => { d with react := false }) := by
  rw [reactStage, if_pos h, if_pos ((startsSeries_iff _).mpr hs)]

/-! ### Timers and tones of an attempt -/

theorem exec_quietTimeout {s : State} {k : IncidentKind} {x : Slot} {d : Nat} (h : s.start.rstHeld = false)
    (hk : s.inc.slots.get k = some x) (ha : x.active = false) (hd : x.quietEnd = some d) :
    exec (.quietTimeout k) s = .next (refreshPins (settle (closeSlot k x (s.reach d)))) := by
  simp only [exec, execQuietTimeout]
  exact complete_running h (by simp only [hk, ha, hd, Bool.false_eq_true, if_false, onExpiry_some])

theorem exec_retryTimeout {s : State} {d : Nat} (h : s.start.rstHeld = false) (hs : s.dial.st = .retryWait)
    (hd : s.dial.retryEnd = some d) : exec .retryTimeout s = .next (refreshPins (settle (attemptBegin (s.reach d)))) := by
  simp only [exec, execRetryTimeout]
  exact complete_timer h hs hd

theorem exec_readyToneTimeout {s : State} {d : Nat} (h : s.start.rstHeld = false) (hs : s.dial.st = .awaitReady)
    (hd : s.dial.handEnd = some d) :
    exec .readyToneTimeout s = .next (refreshPins (settle (attemptFail .noReadyTone (s.reach d)))) := by
  simp only [exec, execReadyToneTimeout]
  exact complete_timer h hs hd

theorem exec_kissoffTimeout {s : State} {d : Nat} (h : s.start.rstHeld = false) (hs : s.dial.st = .awaitKissoff)
    (hd : s.dial.handEnd = some d) :
    exec .kissoffTimeout s = .next (refreshPins (settle (attemptFail .noKissoff (s.reach d)))) := by
  simp only [exec, execKissoffTimeout]
  exact complete_timer h hs hd

theorem exec_acktoneDetection {s t : State} (h : s.start.rstHeld = false) (e : acktone s = t) :
    exec .acktoneDetection s = .next (refreshPins (settle t)) := by
  simp only [exec, execAcktoneDetection]
  exact complete_running h (by rw [e])

theorem acktone_awaited {s : State} (ho : s.line.owner = .report) (hl : s.line.st = .awaitAnswer) : acktone s =
    if s.dial.st = .awaitReady then buildMessage (s.onLine fun l => { l with st := .answered })
    else s.onLine fun l => { l with st := .answered } := by
  simp only [acktone, ho, hl, if_true]

theorem acktone_answered {s : State} (ho : s.line.owner = .report) (hl : s.line.st = .answered) :
    acktone s = if s.dial.st = .awaitKissoff then kissOff s else s := by simp only [acktone, ho, hl, if_true]

theorem acktone_unwatched {s : State}
    (h : s.line.owner ≠ .report ∨ (s.line.st ≠ .awaitAnswer ∧ s.line.st ≠ .answered)) : acktone s = s := by
  by_cases ho : s.line.owner = .report
  · obtain ⟨ha, hb⟩ := h.resolve_left (not_not.mpr ho)
    cases hl : s.line.st <;> simp_all [acktone]
  · exact if_neg ho

/-! ### The message -/

theorem reportable_iff (x : Slot) : x.reportable = true ↔ x.report = .unreported ∧ 2 ≤ x.severity := by
  simp [Slot.reportable]

/-- What a list made from some of the slots in use holds, kind by kind. -/
theorem flatMap_kindSlots {α : Type} (i : Incidents) (p : IncidentKind × Slot → Bool) (f : IncidentKind × Slot → List α) :
    ((kindSlots i).filter p).flatMap f = IncidentKind.list.flatMap fun k => match i.slots.get k with
      | none => []
      | some x => if p (k, x) = true then f (k, x) else [] := by
  rw [kindSlots]
  induction IncidentKind.list with
  | nil => rfl
  | cons k rest ih =>
    rw [List.flatMap_cons, ← ih, List.filterMap_cons]
    cases i.slots.get k with
    | none => rfl
    | some x => by_cases hp : p (k, x) = true <;> simp [hp]

theorem flatMap_slotDigits_eq_nil (l : List (IncidentKind × Slot)) : l.flatMap slotDigits = [] ↔ l = [] := by
  cases l <;> simp [slotDigits]

/-- The digits of the slots of a message: severity 3, then severity 2. -/
def slotsDue (i : Incidents) (three : Bool) : List Nat :=
  ((kindSlots i).filter fun p => p.2.reportable && ((p.2.severity == 3) == three)).flatMap slotDigits

theorem messageDigits_eq (station : List Nat) (i : Incidents) : messageDigits station (messageSlots i) =
    station ++ [10] ++ (if slotsDue i true ++ slotsDue i false = [] then [0, 0, 0, 0]
      else slotsDue i true ++ slotsDue i false) ++ [11] := by
  have taken : (messageSlots i).flatMap slotDigits = slotsDue i true ++ slotsDue i false := by
    simp [messageSlots, slotsDue, bne]
  rw [messageDigits, ← taken]
  simp only [List.isEmpty_iff, flatMap_slotDigits_eq_nil]

theorem slotsDue_eq (i : Incidents) (three : Bool) : slotsDue i three =
    IncidentKind.list.flatMap fun k => match i.slots.get k with
      | none => []
      | some x =>
        if x.report = .unreported ∧ 2 ≤ x.severity ∧ (x.severity = 3 ↔ three = true) then
          [kindCode k / 10, kindCode k % 10, x.severity, min 9 (x.triggers + x.detailCount)] else [] := by
  rw [slotsDue, flatMap_kindSlots]
  refine List.flatMap_congr fun k _ => ?_
  cases i.slots.get k with
  | none => rfl
  | some x =>
    refine if_congr ?_ rfl rfl
    rw [Bool.and_eq_true, reportable_iff, and_assoc, beq_iff_eq, Bool.eq_iff_iff, beq_iff_eq]

theorem markSlot_eq (x : Slot) : markSlot x =
    if x.report = .unreported ∧ 2 ≤ x.severity then { x with report := .marked, renewed := false } else x := by
  simp only [markSlot, reportable_iff]

/-! ### The kiss-off and the failure -/

/-- A release leaves the dialler, the incident table, the time and the settings as they are. -/
theorem releaseLine_reports (w : LineOwner) (s : State) : (releaseLine w s).dial = s.dial ∧ (releaseLine w s).inc = s.inc := by
  unfold releaseLine
  split
  · exact ⟨rfl, rfl⟩
  · dsimp only
    split <;> exact ⟨rfl, rfl⟩

theorem reportDue_iff (s : State) : reportDue s = true ↔ s.dial.testMark = true ∨
    ∃ k x, s.inc.slots.get k = some x ∧ x.report = .unreported ∧ 2 ≤ x.severity := by
  simp [reportDue, reportable_iff, mem_kindSlots]

/-- The wait after the n-th failure of a series. -/
theorem retryWait_succ (n : Nat) :
    retryWait (n + 1) = if n = 0 then 30000 else if n = 1 then 120000 else 600000 := by
  rcases n with _ | _ | n <;> simp [retryWait]

theorem PerKind.map_get {α β : Type} (e : PerKind α) (f : α → β) (k : IncidentKind) : (e.map f).get k = f (e.get k) := by
  cases k <;> rfl

theorem PerKind.map_map {α β γ : Type} (e : PerKind α) (f : α → β) (g : β → γ) : (e.map f).map g = e.map (g ∘ f) := rfl

theorem failSlot_unmarkSlot (x : Slot) : failSlot (unmarkSlot x) =
    if x.report = .marked then { x with report := .reportFailed, renewed := false }
    else if x.report = .unreported then { x with report := .reportFailed } else x := by
  unfold unmarkSlot
  split
  · rfl
  · rfl

/-- The report withdrawn as its attempt fails: the request, or the line. -/
def attemptWithdrawn (s : State) : State := releaseLine .report { s with
  dial := { s.dial with handEnd := none }, line := { s.line with reportReq := false, reservation := false } }

theorem attemptFail_retries {s : State} (h : s.dial.attempts < 3) (reason : FailReason) : attemptFail reason s =
    (mapSlots unmarkSlot (attemptWithdrawn s)).onDial fun d => { d with
      st := .retryWait, attempts := s.dial.attempts + 1, outcome := .failed, reason := reason
      retryEnd := some (s.now + if s.dial.attempts = 0 then 30000 else if s.dial.attempts = 1 then 120000 else 600000) } := by
  rw [attemptFail, if_pos (by omega), retryWait_succ]
  rfl

theorem attemptFail_gives_up {s : State} (h : 3 ≤ s.dial.attempts) (reason : FailReason) : attemptFail reason s =
    (mapSlots (failSlot ∘ unmarkSlot) (attemptWithdrawn s)).onDial fun d => { d with
      st := .idle, attempts := 0, testMark := false, outcome := .failed, reason := reason, retryEnd := none } := by
  rw [attemptFail, if_neg (by omega)]
  have twice (t : State) : mapSlots failSlot (mapSlots unmarkSlot t) = mapSlots (failSlot ∘ unmarkSlot) t := by
    simp only [mapSlots, State.onInc, PerKind.map_map, Option.map_comp_map]
  rw [twice]
  rfl

/-- What the withdrawal leaves on the line: no request, no reservation, and the guard where the report had it. -/
theorem attemptWithdrawn_line (s : State) :
    (attemptWithdrawn s).line.reportReq = false ∧ (attemptWithdrawn s).line.reservation = false ∧
    (s.line.owner = .report → (attemptWithdrawn s).line.owner = .none ∧
      (attemptWithdrawn s).line.guardEnd = some (s.now + 1000)) ∧
    (s.line.owner ≠ .report → (attemptWithdrawn s).line.owner = s.line.owner ∧ (attemptWithdrawn s).line.st = s.line.st) := by
  by_cases ho : s.line.owner = .report
  · by_cases hw : s.call.waiting = true
    · rw [attemptWithdrawn, releaseLine_waiting (by exact ho) (by exact hw)]
      exact ⟨rfl, rfl, fun _ => ⟨rfl, rfl⟩, fun k => absurd ho k⟩
    · rw [attemptWithdrawn, releaseLine_of_owner (by simp) (by exact ho) (.inr (by simpa using hw))]
      exact ⟨rfl, rfl, fun _ => ⟨rfl, rfl⟩, fun k => absurd ho k⟩
  · rw [attemptWithdrawn, releaseLine_of_other (.inr (by exact ho))]
    exact ⟨rfl, rfl, fun k => absurd k ho, fun _ => ⟨rfl, rfl⟩⟩

/-! ### The record of a slot that leaves -/

/-- An incident record's parts in their order; the seven bytes behind them are 0. -/
theorem incidentBody_parts (q : Nat) (k : IncidentKind) (x : Slot) (c : Stamp) : incidentBody q k x c =
    w16 q ++ (w16 x.seq ++ ([b8 (kindCode k), b8 x.severity, b8 x.report.code,
      b8 (flagBit x.opened.isSet 1 + flagBit c.isSet 2)] ++ (stampBytes x.opened ++ (stampBytes c ++
      ([b8 x.triggers, b8 x.detailCount] ++ (money6 x.detailMoney ++ List.replicate 7 0)))))) := by
  unfold incidentBody
  rw [fit_of_le (by simp)]
  simp

/-- Settles O45: each deadline and tone by its equation, the message as the slots due kind by kind, and a failure's figures from
its two equations over the withdrawn report. -/
theorem reportAttempts : Obligations.ReportAttempts := by
  unfold Obligations.ReportAttempts
  intro beginning
  have begins (y : State) : beginning y = attemptBegin y := by
    by_cases hn : y.req.cfg.reportNumber = []
    · exact (if_pos hn).trans (attemptBegin_unnumbered hn).symm
    · rw [attemptBegin_numbered hn]
      refine (if_neg hn).trans ?_
      by_cases hp : (attemptAsked y).line.owner = .call ∧ (attemptAsked y).line.reportReq = true ∧
          (attemptAsked y).call.st = .collect ∧ (attemptAsked y).call.holdFlag = true
      · rw [askPreempt_eq hp]; exact if_pos hp
      · rw [askPreempt_rests hp]; exact if_neg hp
  refine ⟨fun s d h => ⟨fun k x hk ha hd => ?_, fun hs hd => ?_, fun hs hd => ?_, fun hs hd => ?_,
    fun ho hl => ⟨fun hs => ?_, fun hs => ?_⟩, fun ho hl => ⟨fun hs => ?_, fun hs => ?_⟩, fun k => ?_⟩, fun s => ?_, fun s => ?_,
    fun s => ⟨reactStage_rest, fun hr hs => ?_, ?_⟩, fun reason s => ?_, fun reason s => ?_, fun k x s => ?_⟩
  · exact exec_quietTimeout h hk ha hd
  · rw [exec_retryTimeout h hs hd, ← begins]; rfl
  · exact exec_readyToneTimeout h hs hd
  · exact exec_kissoffTimeout h hs hd
  · exact exec_acktoneDetection h (by rw [acktone_awaited ho hl, if_pos hs]; rfl)
  · exact exec_acktoneDetection h (by rw [acktone_awaited ho hl, if_neg hs]; rfl)
  · exact exec_acktoneDetection h (by rw [acktone_answered ho hl, if_pos hs])
  · exact exec_acktoneDetection h (by rw [acktone_answered ho hl, if_neg hs])
  · exact exec_acktoneDetection h (acktone_unwatched k)
  · intro due body
    have dues (three : Bool) : slotsDue s.inc three = due three := slotsDue_eq s.inc three
    rw [buildMessage, messageDigits_eq, dues, dues, show markSlot = _ from funext markSlot_eq]
    rfl
  · intro t due
    have marked : t.dial.testMark = false := by rw [show t.dial = _ from (releaseLine_reports _ _).1]
    have dued : reportDue t = true ↔ due := by rw [reportDue_iff, marked]; simp only [Bool.false_eq_true, false_or]; rfl
    rw [begins]
    exact ⟨fun k => if_pos (dued.mpr k), fun k => if_neg (mt dued.mp k)⟩
  · rw [reactStage_begins hr hs, freshSeries, ← begins]; rfl
  · exact (begins _).symm
  · intro g shown changed
    refine ⟨fun hn => ?_, fun hn => ?_⟩
    · rw [attemptFail_retries hn]; rfl
    · rw [attemptFail_gives_up hn, show failSlot ∘ unmarkSlot = _ from funext failSlot_unmarkSlot]; rfl
  · intro t
    obtain ⟨req, res, owned, other⟩ := attemptWithdrawn_line s
    have dial : (attemptWithdrawn s).dial = { s.dial with handEnd := none } := (releaseLine_reports _ _).1
    have inc : (attemptWithdrawn s).inc = s.inc := (releaseLine_reports _ _).2
    by_cases hn : s.dial.attempts < 3
    · have e : t = _ := attemptFail_retries hn reason
      rw [e]
      simp only [mapSlots, State.onInc, State.onDial, dial, inc]
      refine ⟨trivial, trivial, trivial, trivial, req, res, owned, other,
        fun _ => ⟨trivial, trivial, trivial, trivial, fun k x hk => ?_⟩, fun k => by omega⟩
      rw [PerKind.map_get, hk]
      rfl
    · have e : t = _ := attemptFail_gives_up (Nat.not_lt.mp hn) reason
      rw [e]
      simp only [mapSlots, State.onInc, State.onDial, dial, inc]
      refine ⟨trivial, trivial, trivial, trivial, req, res, owned, other, fun k => absurd k hn,
        fun _ => ⟨trivial, trivial, trivial, trivial, fun k x hk => ?_⟩⟩
      rw [PerKind.map_get, hk]
      refine ⟨_, rfl, ?_⟩
      simp only [Function.comp_apply, failSlot_unmarkSlot]
      by_cases hm : x.report = .marked
      · simp [hm]
      · by_cases hu : x.report = .unreported <;> simp [hm, hu]
  · intro body at_
    have parts := incidentBody_parts s.inc.nextLog k x s.stamp
    refine ⟨rfl, by rw [show body = _ from parts]; simp, ?_, ?_, ?_, ?_, ?_, ?_, ?_, ?_, ?_, ?_, ?_⟩
    case refine_7 =>
      have slice : at_ 0x08 5 = stampBytes x.opened := by simp [at_, body, parts, drop_past]
      exact slice
    case refine_8 =>
      have slice : at_ 0x0D 5 = stampBytes s.stamp := by simp [at_, body, parts, drop_past]
      exact slice
    all_goals simp [at_, body, parts, drop_past, flagBit]

end Sys2Proof.Machine
end

section
/-!
PROOFS. Power fail and clock (O47), the requests and the reasons they clear (O48), the two acknowledgements (O49, O50).
-/

namespace Sys2Proof.Machine

/-! ### Power fail and clock -/

theorem exec_pfwAssert_again {s : State} (h : s.pfw = true) : exec .pfwAssert s = .next (refreshPins s) := by
  simp only [exec, execPfwAssert, h, if_true]
  rfl

theorem exec_pfwAssert {s : State} (h : s.start.rstHeld = false) (hp : s.pfw = false) : exec .pfwAssert s =
    .next (refreshPins (if checkpointDue s = true then takeCheckpoint { s with pfw := true } else { s with pfw := true })) := by
  simp only [exec, execPfwAssert, hp, Bool.false_eq_true, if_false]
  exact complete_running h rfl

theorem checkpointDue_iff (s : State) :
    checkpointDue s = true ↔ (s.call.st = .connected ∨ s.call.st = .grace) ∧ s.call.seq.isSome = true := by
  rw [checkpointDue, Bool.and_eq_true, charging_iff]

theorem exec_pfwClear {s : State} (h : s.pfw = true) : exec .pfwClear s = .next (refreshPins { s with
    pfw := false
    coin := { s.coin with purgeNext :=
      if s.coin.purgeNext.isSome = true then some (s.now + s.req.cfg.deadTime) else s.coin.purgeNext } }) := by
  simp only [exec, execPfwClear, h, if_true]
  by_cases k : s.coin.purgeNext.isSome = true
  · rw [if_pos k, if_pos k]; rfl
  · rw [if_neg k, if_neg k]; rfl

theorem advanceClock_eq (c : Clock) (due : Nat) (h : c.isSet = true) : advanceClock c due =
    ⟨if c.sec = 86399 then (c.day + 1) % 65536 else c.day, if c.sec = 86399 then 0 else c.sec + 1, true, some (due + 1000)⟩ := by
  by_cases e : c.sec = 86399 <;> simp [advanceClock, e, h, next16]

theorem exec_clockSecond {s : State} {due : Nat} (h : s.clock.isSet = true) (hn : s.clock.nextSecond = some due) :
    exec .clockSecond s = .next (refreshPins ((s.reach due).onClock fun c => advanceClock c due)) := by
  simp only [exec, execClockSecond, hn, h, if_true]
  rfl

/-- Settles O47. -/
theorem powerFailAndClock : Obligations.PowerFailAndClock := by
  unfold Obligations.PowerFailAndClock
  refine fun s => ⟨fun h hp => ⟨fun q hs hq => ?_, fun k => ?_⟩, exec_pfwAssert_again, exec_pfwClear, fun due hc hn => ?_⟩
  · rw [exec_pfwAssert h hp, if_pos ((checkpointDue_iff s).mpr ⟨hs, by simp [hq]⟩), takeCheckpoint,
      handCallRecord_some (q := q) (by exact hq)]
    rfl
  · rw [exec_pfwAssert h hp, if_neg]
    rw [checkpointDue_iff]
    rintro ⟨hs, hq⟩
    rcases k with ⟨hc, hg⟩ | k
    · exact hs.elim hc hg
    · simp [k] at hq
  · rw [exec_clockSecond hc hn, ← advanceClock_eq s.clock due hc]
    rfl

/-! ### The bytes of a request -/

theorem b8_toNat (n : Nat) : (b8 n).toNat = n % 256 := BitVec.toNat_ofNat n 8

theorem requestImage_eq {params : List Byte} (h : params.length ≤ 62) (code : Nat) (tag : Byte) :
    requestImage code tag params = b8 code :: tag :: (params ++ List.replicate (62 - params.length) (b8 0)) := by
  rw [requestImage, fit_of_le (by simp only [List.length_cons]; omega)]
  simp [b8]

theorem byteAt_requestImage_code {params : List Byte} (h : params.length ≤ 62) {code : Nat} (hc : code < 256) (tag : Byte) :
    byteAt (requestImage code tag params) 0 = code := by
  rw [requestImage_eq h]
  exact (b8_toNat code).trans (Nat.mod_eq_of_lt hc)

theorem byteAt_requestImage_tag {params : List Byte} (h : params.length ≤ 62) (code : Nat) (tag : Byte) :
    byteAt (requestImage code tag params) 1 = tag.toNat := by
  rw [requestImage_eq h]
  rfl

/-- A parameter of one byte. -/
theorem byteAt_requestImage_param (code : Nat) (tag b : Byte) (l : List Byte) (h : l.length ≤ 61) :
    byteAt (requestImage code tag (b :: l)) 2 = b.toNat := by
  rw [requestImage_eq (by simp only [List.length_cons]; omega)]
  rfl

theorem be2_bytes {n : Nat} (h : n < 65536) : (b8 (n / 256)).toNat * 256 + (b8 n).toNat = n := by
  rw [b8_toNat, b8_toNat]
  omega

theorem be2_requestImage_w16 (code : Nat) (tag : Byte) {n : Nat} (hn : n < 65536) :
    be2 (requestImage code tag (w16 n)) 2 = n := by
  rw [requestImage_eq (by simp)]
  exact be2_bytes hn

theorem be2_requestImage_day (tag : Byte) {d n : Nat} (hd : d < 65536) :
    be2 (requestImage 1 tag (w16 d ++ w24 n)) 2 = d := by
  rw [requestImage_eq (by simp)]
  exact be2_bytes hd

theorem be3_requestImage_sec (tag : Byte) {d n : Nat} (hn : n < 16777216) :
    be3 (requestImage 1 tag (w16 d ++ w24 n)) 4 = n := by
  rw [requestImage_eq (by simp)]
  show ((b8 (n / 65536)).toNat * 256 + (b8 (n / 256)).toNat) * 256 + (b8 n).toNat = n
  simp only [b8_toNat]
  omega

/-! ### Taking a request -/

/-- The handler at work on an image. -/
def atWork (image : List Byte) (s : State) : State := { s with req := { s.req with st := .working, latched := image } }

theorem direct_taken {s : State} (h : s.start.rstHeld = false) (hp : s.start.phase ≠ .resetting) (hi : s.req.st = .idle)
    (image : List Byte) : complete (directRequest image s) = .next (refreshPins (settle (takeRequest image s))) := by
  rw [directRequest, if_neg (by simp [h, hp, hi])]
  rfl

theorem takeRequest_badCode {s : State} {image : List Byte} (h : byteAt image 0 = 0 ∨ 10 < byteAt image 0) :
    takeRequest image s = respond .badCode [] (atWork image s) := if_pos (h.imp_left (by omega))

theorem takeRequest_early {s : State} {image : List Byte} (h2 : 2 ≤ byteAt image 0) (h10 : byteAt image 0 ≤ 10)
    (hp : s.start.phase ≠ .ready) : takeRequest image s = respond .refusedState [] (atWork image s) := by
  rw [takeRequest]
  exact (if_neg (by omega)).trans (if_pos ⟨hp, by omega⟩)

theorem takeRequest_carried {s : State} {image : List Byte} (h1 : 1 ≤ byteAt image 0) (h10 : byteAt image 0 ≤ 10)
    (hp : s.start.phase = .ready ∨ byteAt image 0 = 1) : takeRequest image s = carryOut image (atWork image s) := by
  rw [takeRequest]
  refine (if_neg (by omega)).trans (if_neg fun k => ?_)
  exact hp.elim k.1 k.2

/-- The answer to an image, by its code and tag. -/
theorem respond_eq {s : State} {code tag : Nat} (res : Result) (detail : List Byte) (hc : byteAt s.req.latched 0 = code)
    (ht : byteAt s.req.latched 1 = tag) : respond res detail s = handResponse (responseBody code tag res.code detail)
      { s with req := { s.req with lastCode := code, lastTag := tag, lastResult := res.code } } := by
  subst hc ht
  rfl

/-- What is answered for a request handed over directly. -/
theorem respond_direct {s : State} {code : Nat} {tag : Byte} {params : List Byte} (res : Result) (detail : List Byte)
    (h : s.req.latched = requestImage code tag params) (hp : params.length ≤ 62) (hc : code < 256) :
    respond res detail s = handResponse (responseBody code tag.toNat res.code detail)
      { s with req := { s.req with lastCode := code, lastTag := tag.toNat, lastResult := res.code } } :=
  respond_eq res detail (by rw [h, byteAt_requestImage_code hp hc]) (by rw [h, byteAt_requestImage_tag hp])

/-! ### The acknowledgements -/

theorem gap16_eq (a b : Nat) : gap16 a b = (((a : Int) - b) % 65536).toNat := by
  unfold gap16
  omega

theorem newer_iff_int (a b : Nat) :
    newer a b = true ↔ 1 ≤ ((a : Int) - b) % 65536 ∧ ((a : Int) - b) % 65536 ≤ 32767 := by
  rw [newer_iff, gap16_eq]
  omega

/-- The records above an acknowledged sequence. -/
theorem unacked_acked (c : CallControl) (q : Nat) :
    ({ c with ackedSeq := q } : CallControl).unacked = (((c.nextSeq : Int) - (q + 1)) % 65536).toNat := by
  rw [unacked_eq, gap16_eq, next16]
  push_cast
  omega

theorem ackCalls_newer {q : Nat} {s : State} (h : newer q s.call.lastFinal = true) : ackCalls q s = (.badParam, s) :=
  if_pos h

theorem ackCalls_old {q : Nat} {s : State} (h : ¬ newer q s.call.lastFinal = true) (hk : ¬ newer q s.call.ackedSeq = true) :
    ackCalls q s = (.ok, s) := by rw [ackCalls, if_neg h, if_neg hk]

theorem ringAlmostFull_eq (s : State) : ringAlmostFull s = decide (128 - s.req.cfg.ringMargin ≤ s.call.unacked) := rfl

theorem ackCalls_moves {q unacked : Nat} {s : State} (h : ¬ newer q s.call.lastFinal = true)
    (hk : newer q s.call.ackedSeq = true) (count : ({ s.call with ackedSeq := q } : CallControl).unacked = unacked) :
    ackCalls q s = (.ok, { s with call := { s.call with
        ackedSeq := q
        reasons := { s.call.reasons with ringFull := if unacked < 124 then false else s.call.reasons.ringFull }
        almostFull := decide (128 - s.req.cfg.ringMargin ≤ unacked) } }) := by
  subst count
  rw [ackCalls, if_neg h, if_pos hk]
  by_cases low : ({ s.call with ackedSeq := q } : CallControl).unacked < 124
  · rw [if_pos low]
    exact congrArg (fun u => (Result.ok, refreshAlmostFull u)) (if_pos low)
  · rw [if_neg low]
    exact congrArg (fun u => (Result.ok, refreshAlmostFull u)) (if_neg low)

theorem ackIncidents_newer {q : Nat} {s : State} (h : newer q s.inc.lastLog = true) : ackIncidents q s = (.badParam, s) :=
  if_pos h

theorem ackIncidents_old {q : Nat} {s : State} (h : ¬ newer q s.inc.lastLog = true) (hk : ¬ newer q s.inc.ackedLog = true) :
    ackIncidents q s = (.ok, s) := by rw [ackIncidents, if_neg h, if_neg hk]

theorem ackIncidents_moves {q : Nat} {s : State} (h : ¬ newer q s.inc.lastLog = true) (hk : newer q s.inc.ackedLog = true) :
    ackIncidents q s = (.ok, { s with inc := { s.inc with ackedLog := q } }) := by
  rw [ackIncidents, if_neg h, if_pos hk]
  rfl

theorem takeRequest_ackCalls {image : List Byte} {s : State} {q : Nat} (hc : byteAt image 0 = 6) (hq : be2 image 2 = q)
    (hp : s.start.phase = .ready) : takeRequest image s = answerWith (ackCalls q (atWork image s)) := by
  rw [takeRequest_carried (by omega) (by omega) (.inl hp)]
  simp only [carryOut, hc, hq]

theorem takeRequest_ackIncidents {image : List Byte} {s : State} {q : Nat} (hc : byteAt image 0 = 7) (hq : be2 image 2 = q)
    (hp : s.start.phase = .ready) : takeRequest image s = answerWith (ackIncidents q (atWork image s)) := by
  rw [takeRequest_carried (by omega) (by omega) (.inl hp)]
  simp only [carryOut, hc, hq]

theorem exec_ackCalls {s : State} (tag : Byte) (q : BitVec 16) (h : s.start.rstHeld = false) (hp : s.start.phase = .ready)
    (hi : s.req.st = .idle) : exec (.ackCalls tag q) s =
      .next (refreshPins (settle (answerWith (ackCalls q.toNat (atWork (requestImage 6 tag (w16 q.toNat)) s))))) := by
  rw [← takeRequest_ackCalls (byteAt_requestImage_code (by simp) (by decide) tag) (be2_requestImage_w16 6 tag q.isLt) hp]
  exact direct_taken h (by simp [hp]) hi _

theorem exec_ackIncidents {s : State} (tag : Byte) (q : BitVec 16) (h : s.start.rstHeld = false) (hp : s.start.phase = .ready)
    (hi : s.req.st = .idle) : exec (.ackIncidents tag q) s =
      .next (refreshPins (settle (answerWith (ackIncidents q.toNat (atWork (requestImage 7 tag (w16 q.toNat)) s))))) := by
  rw [← takeRequest_ackIncidents (byteAt_requestImage_code (by simp) (by decide) tag) (be2_requestImage_w16 7 tag q.isLt) hp]
  exact direct_taken h (by simp [hp]) hi _

/-- Settles O49. -/
theorem ackCallsMovesTheRing : Obligations.AckCallsMovesTheRing := by
  unfold Obligations.AckCallsMovesTheRing
  intro tag q s h hp hi t answer newerThan unacked
  have taken : exec (.ackCalls tag q) s = .next (refreshPins (settle (answerWith (ackCalls q.toNat t)))) :=
    exec_ackCalls tag q h hp hi
  have told (res : Result) (y : State) (hy : y.req = t.req) : .next (refreshPins (settle (answerWith (res, y)))) =
      answer res.code y := by
    rw [answerWith, respond_direct res [] (by rw [hy]) (by simp) (by decide)]
  have late (a b : Nat) : newer a b = true ↔ newerThan a b := newer_iff_int a b
  refine ⟨fun hn => ?_, fun hn hk => ?_, fun hn hk => ?_, fun image hc hq => ⟨fun hn => ?_, fun hn hk => ?_, fun hn hk => ?_⟩⟩
  · rw [taken, ackCalls_newer (s := t) ((late _ _).mpr hn)]
    exact told .badParam t rfl
  · rw [taken, ackCalls_moves (s := t) (mt (late _ _).mp hn) ((late _ _).mpr hk) (unacked_acked _ _)]
    exact told .ok _ rfl
  · rw [taken, ackCalls_old (s := t) (mt (late _ _).mp hn) (mt (late _ _).mp hk)]
    exact told .ok t rfl
  · rw [takeRequest_ackCalls hc hq hp, ackCalls_newer (s := atWork image s) ((late _ _).mpr hn)]
    rfl
  · rw [takeRequest_ackCalls hc hq hp,
      ackCalls_moves (s := atWork image s) (mt (late _ _).mp hn) ((late _ _).mpr hk) (unacked_acked _ _)]
    rfl
  · rw [takeRequest_ackCalls hc hq hp, ackCalls_old (s := atWork image s) (mt (late _ _).mp hn) (mt (late _ _).mp hk)]
    rfl

/-- Settles O50. -/
theorem ackIncidentsMovesTheLog : Obligations.AckIncidentsMovesTheLog := by
  unfold Obligations.AckIncidentsMovesTheLog
  intro tag q s h hp hi t answer newerThan
  have taken : exec (.ackIncidents tag q) s = .next (refreshPins (settle (answerWith (ackIncidents q.toNat t)))) :=
    exec_ackIncidents tag q h hp hi
  have told (res : Result) (y : State) (hy : y.req = t.req) : .next (refreshPins (settle (answerWith (res, y)))) =
      answer res.code y := by
    rw [answerWith, respond_direct res [] (by rw [hy]) (by simp) (by decide)]
    rfl
  have late (a b : Nat) : newer a b = true ↔ newerThan a b := newer_iff_int a b
  refine ⟨fun hn => ?_, fun hn hk => ?_, fun hn hk => ?_, fun image hc hq => ⟨fun hn => ?_, fun hn hk => ?_, fun hn hk => ?_⟩⟩
  · rw [taken, ackIncidents_newer (s := t) ((late _ _).mpr hn)]
    exact told .badParam t rfl
  · rw [taken, ackIncidents_moves (s := t) (mt (late _ _).mp hn) ((late _ _).mpr hk)]
    exact told .ok _ rfl
  · rw [taken, ackIncidents_old (s := t) (mt (late _ _).mp hn) (mt (late _ _).mp hk)]
    exact told .ok t rfl
  · rw [takeRequest_ackIncidents hc hq hp, ackIncidents_newer (s := atWork image s) ((late _ _).mpr hn)]
    rfl
  · rw [takeRequest_ackIncidents hc hq hp,
      ackIncidents_moves (s := atWork image s) (mt (late _ _).mp hn) ((late _ _).mpr hk)]
    rfl
  · rw [takeRequest_ackIncidents hc hq hp, ackIncidents_old (s := atWork image s) (mt (late _ _).mp hn) (mt (late _ _).mp hk)]
    rfl

end Sys2Proof.Machine
end

section
/-!
PROOFS. The requests that the handler carries out itself, and the reasons that CLEAR_BLOCK clears (O48).
-/

namespace Sys2Proof.Machine

/-! ### Each request on an image -/

theorem takeRequest_setClock {image : List Byte} {s : State} (hc : byteAt image 0 = 1) :
    takeRequest image s = setClockRequest (be2 image 2) (be3 image 4) (atWork image s) := by
  rw [takeRequest_carried (by omega) (by omega) (.inr hc)]
  simp only [carryOut, hc]

theorem takeRequest_openService {image : List Byte} {s : State} (hc : byteAt image 0 = 2) (hp : s.start.phase = .ready) :
    takeRequest image s = openServiceRequest (byteAt image 2) (atWork image s) := by
  rw [takeRequest_carried (by omega) (by omega) (.inl hp)]
  simp only [carryOut, hc]

theorem takeRequest_closeService {image : List Byte} {s : State} (hc : byteAt image 0 = 3) (hp : s.start.phase = .ready) :
    takeRequest image s = closeServiceRequest (atWork image s) := by
  rw [takeRequest_carried (by omega) (by omega) (.inl hp)]
  simp only [carryOut, hc]

theorem takeRequest_testReport {image : List Byte} {s : State} (hc : byteAt image 0 = 8) (hp : s.start.phase = .ready) :
    takeRequest image s = respond .ok [] (testReport (atWork image s)) := by
  rw [takeRequest_carried (by omega) (by omega) (.inl hp)]
  simp only [carryOut, hc]

theorem takeRequest_clearBlock {image : List Byte} {s : State} (hc : byteAt image 0 = 9) (hp : s.start.phase = .ready) :
    takeRequest image s = clearBlockRequest (byteAt image 2) (atWork image s) := by
  rw [takeRequest_carried (by omega) (by omega) (.inl hp)]
  simp only [carryOut, hc]

theorem takeRequest_reseedTamper {image : List Byte} {s : State} (hc : byteAt image 0 = 10) (hp : s.start.phase = .ready) :
    takeRequest image s = reseedRequest (byteAt image 2) (atWork image s) := by
  rw [takeRequest_carried (by omega) (by omega) (.inl hp)]
  simp only [carryOut, hc]

/-! ### Each request in its bounds and outside them -/

theorem setClockRequest_ok {d n : Nat} {s : State} (h : n ≤ 86399) : setClockRequest d n s =
    respond .ok [] { s with clock := ⟨d, n, true, some (s.now + 1000)⟩ } := if_neg (by omega)

theorem setClockRequest_bad {d n : Nat} {s : State} (h : 86399 < n) : setClockRequest d n s = respond .badParam [] s :=
  if_pos h

theorem within_iff (lo x hi : Nat) : within lo x hi = true ↔ lo ≤ x ∧ x ≤ hi := by simp [within]

theorem openServiceRequest_ok {m : Nat} {s : State} (h1 : 1 ≤ m) (h60 : m ≤ 60) (hs : s.vault.session ≠ .authorised) :
    openServiceRequest m s = respond .ok [] { s with vault := { s.vault with windowEnd := some (s.now + 60000 * m) } } := by
  rw [openServiceRequest, if_pos ((within_iff ..).mpr ⟨h1, h60⟩), openWindow, if_neg hs]
  rfl

theorem openServiceRequest_over {m : Nat} {s : State} (h1 : 1 ≤ m) (h60 : m ≤ 60) (hs : s.vault.session = .authorised) :
    openServiceRequest m s =
      respond .ok [] (endOvertime { s with vault := { s.vault with windowEnd := some (s.now + 60000 * m) } }) := by
  rw [openServiceRequest, if_pos ((within_iff ..).mpr ⟨h1, h60⟩), openWindow, if_pos hs]
  rfl

theorem openServiceRequest_bad {m : Nat} {s : State} (h : m = 0 ∨ 60 < m) :
    openServiceRequest m s = respond .badParam [] s := by
  rw [openServiceRequest, if_neg]
  rw [within_iff]
  omega

theorem closeServiceRequest_closed {s : State} (h : s.vault.windowEnd = none) :
    closeServiceRequest s = respond .ok [] s := by
  rw [closeServiceRequest, if_neg (by simp [h])]

theorem closeServiceRequest_closes {s : State} (h : s.vault.windowEnd.isSome = true) (hs : s.vault.session ≠ .authorised) :
    closeServiceRequest s = respond .ok [] { s with vault := { s.vault with windowEnd := none } } := by
  rw [closeServiceRequest, if_pos h, closeWindow_rests hs]
  rfl

theorem closeServiceRequest_over {s : State} (h : s.vault.windowEnd.isSome = true) (hs : s.vault.session = .authorised) :
    closeServiceRequest s = respond .ok [] (openIncident .vaultOvertime
      { s with vault := { s.vault with windowEnd := none, overtime := true } }) := by
  rw [closeServiceRequest, if_pos h, closeWindow_authorised hs]
  rfl

theorem testReport_again {s : State} (h : s.dial.testMark = true) : testReport s = s := if_pos h

theorem testReport_begins {s : State} (h : s.dial.testMark = false) (hs : s.dial.st = .idle) :
    testReport s = freshSeries { s with dial := { s.dial with testMark := true } } := by
  rw [testReport, if_neg (by simp [h]), if_pos hs]
  rfl

theorem testReport_waits {s : State} (h : s.dial.testMark = false) (hs : s.dial.st ≠ .idle) :
    testReport s = { s with dial := { s.dial with testMark := true } } := by
  rw [testReport, if_neg (by simp [h]), if_neg hs]
  rfl

theorem clearable_iff (m : Nat) : clearable m = true ↔ m = 0 ∨ m = 1 ∨ m = 2 ∨ m = 6 := by simp [clearable, or_assoc]

theorem clearBlockRequest_bad {m : Nat} {s : State} (h : ¬ (m = 0 ∨ m = 1 ∨ m = 2 ∨ m = 6)) :
    clearBlockRequest m s = respond .badParam [] s := if_pos (by simpa using mt (clearable_iff m).mp h)

theorem clearBlockRequest_refused {m : Nat} {s : State} (h : m = 0 ∨ m = 1 ∨ m = 2 ∨ m = 6)
    (hs : s.tamper.context ≠ .service) : clearBlockRequest m s = respond .refusedState [] s := by
  rw [clearBlockRequest, if_neg (by simp [(clearable_iff m).mpr h]), if_pos hs]

theorem clearBlockRequest_ok {m : Nat} {s : State} (h : m = 0 ∨ m = 1 ∨ m = 2 ∨ m = 6) (hs : s.tamper.context = .service) :
    clearBlockRequest m s = respond .ok [] (clearReason m s) := by
  rw [clearBlockRequest, if_neg (by simp [(clearable_iff m).mpr h]), if_neg (by simp [hs])]

theorem reseedRequest_ok {m : Nat} {s : State} (h : m < 128) : reseedRequest m s = respond .ok [] (reseedSet m s) :=
  if_neg (by omega)

theorem reseedRequest_bad {m : Nat} {s : State} (h : 128 ≤ m) : reseedRequest m s = respond .badParam [] s := if_pos h

/-! ### What a request leaves of its image -/

theorem endOvertime_req (s : State) : (endOvertime s).req = s.req := by
  unfold endOvertime
  split
  · obtain ⟨i, e⟩ := endCondition_frame .vaultOvertime (s.onVault fun v => { v with overtime := false })
    rw [e]
    rfl
  · rfl

theorem openIncident_req (k : IncidentKind) (s : State) : (openIncident k s).req = s.req := by
  obtain ⟨i, d, e⟩ := openIncident_frame k s
  rw [e]

/-! ### The reasons -/

theorem clearSlotJam_present {s : State} (h : s.call.reasons.slotJam = true) :
    clearSlotJam s = endCondition .slotJam (dropReason .slotJam s) := if_pos h

theorem clearSlotJam_absent {s : State} (h : s.call.reasons.slotJam = false) : clearSlotJam s = s :=
  if_neg (by simp [State.blocked, Reasons.has, h])

theorem clearFreezing_absent {s : State} {r : BlockReason} (h : s.blocked r = false) (k : IncidentKind) :
    clearFreezing r k s = s := if_neg (by simp [h])

theorem endCondition_frozen (k : IncidentKind) (s : State) : frozen (endCondition k s) = frozen s := by
  obtain ⟨i, e⟩ := endCondition_frame k s
  rw [e]
  rfl

/-- The other freezing reason remains. -/
theorem clearFreezing_frozen {s : State} {r : BlockReason} (h : s.blocked r = true) (k : IncidentKind)
    (hf : frozen (dropReason r s) = true) : clearFreezing r k s = endCondition k (dropReason r s) := by
  rw [clearFreezing, if_pos h]
  exact if_pos ((endCondition_frozen k _).trans hf)

theorem clearFreezing_thaws {s : State} {r : BlockReason} (h : s.blocked r = true) (k : IncidentKind)
    (hf : frozen (dropReason r s) = false) : clearFreezing r k s =
      (endCondition k (dropReason r s)).onCoin fun c => { c with escrow := c.escrow.map (assignRelease (r == .chuteBlocked)) } := by
  rw [clearFreezing, if_pos h]
  exact if_neg (by rw [endCondition_frozen, hf]; simp)

theorem assignRelease_chute (x : Escrow) : assignRelease true x =
    { x with st := if x.st = .held ∧ x.standing = .committed then .releasingCollect
                   else if x.st = .held ∧ x.standing = .heldOver then .releasingReturn else x.st } := by
  obtain ⟨_, _, _, st, standing⟩ := x
  cases st <;> cases standing <;> rfl

theorem assignRelease_flap (x : Escrow) : assignRelease false x =
    { x with st := if x.st = .held ∧ x.standing ≠ .credit then .releasingCollect else x.st } := by
  obtain ⟨_, _, _, st, standing⟩ := x
  cases st <;> cases standing <;> rfl

theorem handVaultUpdate_tariff (s : State) : (handVaultUpdate s).tariff = s.tariff := by
  unfold handVaultUpdate pushItem
  split
  · rfl
  · split
    · rfl
    · split <;> rfl

theorem handCollection_tariff (r : Collection) (b : PageB) (s : State) : (handCollection r b s).tariff = s.tariff := by
  unfold handCollection pushItem
  split
  · rfl
  · split <;> rfl

theorem clearAccountFault_absent {s : State} (h : s.call.reasons.accountFault = false) : clearAccountFault s = s :=
  if_neg (by simp [State.blocked, Reasons.has, h])

/-- A new epoch, with its record and its update (R121). -/
def epochBegun (s : State) : State :=
  handCollection ⟨next16 s.vault.collSeq, .epochStart, next16 s.vault.epoch, s.stamp, false, false, s.vault.since, 0⟩
    ⟨s.vault.base, next16 s.vault.epoch, next16 s.vault.collSeq⟩
    (handVaultUpdate { endCondition .accountFault (dropReason .accountFault s) with vault := { s.vault with
      epoch := next16 s.vault.epoch, collSeq := next16 s.vault.collSeq, sat := false
      summary := some ⟨next16 s.vault.collSeq, s.vault.since.value, .epochStart⟩ } })

theorem clearAccountFault_present {s : State} (h : s.call.reasons.accountFault = true) : clearAccountFault s =
    if s.tariff.unwritten = true then
      handBankSwitch { epochBegun s with tariff := { (epochBegun s).tariff with unwritten := false } }
    else epochBegun s := by
  obtain ⟨i, e⟩ := endCondition_frame .accountFault (dropReason .accountFault s)
  have same : (epochBegun s).tariff = s.tariff := by
    rw [epochBegun, handCollection_tariff, handVaultUpdate_tariff, e]
    rfl
  rw [clearAccountFault, if_pos (by exact h), ← same]
  simp only [epochBegun, e]
  rfl

/-- Settles O48: each request as its image is carried out, and for the rows the same with the bytes of the image handed over. -/
theorem requestsAndReasons : Obligations.RequestsAndReasons := by
  unfold Obligations.RequestsAndReasons
  refine ⟨fun tag s h hr hi => ?_, fun image s => ?_, by decide, fun code tag params hp => requestImage_eq hp code tag,
    fun s => ⟨fun hv => if_neg (by simp [hv]), fun hv => if_pos hv⟩, fun s => ?_⟩
  · intro taken answer answered
    have direct (c : Instr) (code : Nat) (params : List Byte) (res : Result) (y : State)
        (he : exec c s = complete (directRequest (requestImage code tag params) s)) (hl : params.length ≤ 62) (hc : code < 256)
        (ht : takeRequest (requestImage code tag params) s = respond res [] y) (hy : y.req = (taken code params).req) :
        exec c s = answer code res.code y := by
      rw [he, direct_taken h hr hi, ht, respond_direct res [] (by rw [hy]) hl hc]
    refine ⟨fun res detail y => rfl, fun day sec => ?_, fun hp b v => ?_, fun hp => ?_⟩
    · have hc := byteAt_requestImage_code (params := w16 day.toNat ++ w24 sec.toNat) (by simp) (show 1 < 256 by decide) tag
      have set (t : State) (ht : setClockRequest day.toNat sec.toNat (taken 1 (w16 day.toNat ++ w24 sec.toNat)) = t) :
          takeRequest (requestImage 1 tag (w16 day.toNat ++ w24 sec.toNat)) s = t := by
        rw [takeRequest_setClock hc, be2_requestImage_day tag day.isLt, be3_requestImage_sec tag sec.isLt]
        exact ht
      exact ⟨fun hs => direct _ 1 _ .ok _ rfl (by simp) (by decide) (set _ (setClockRequest_ok hs)) rfl,
        fun hs => direct _ 1 _ .badParam _ rfl (by simp) (by decide) (set _ (setClockRequest_bad hs)) rfl⟩
    · have refused (c : Instr) (code : Nat) (params : List Byte)
          (he : exec c s = complete (directRequest (requestImage code tag params) s)) (hl : params.length ≤ 62)
          (h2 : 2 ≤ code) (h10 : code ≤ 10) : exec c s = answer code 4 (taken code params) := by
        have hc := byteAt_requestImage_code hl (show code < 256 by omega) tag
        exact direct c code params .refusedState _ he hl (by omega)
          (takeRequest_early (by rw [hc]; exact h2) (by rw [hc]; exact h10) hp) rfl
      refine ⟨refused _ 2 _ rfl ?_ ?_ ?_, refused _ 3 _ rfl ?_ ?_ ?_, refused _ 4 _ rfl ?_ ?_ ?_, refused _ 5 _ rfl ?_ ?_ ?_,
        refused _ 6 _ rfl ?_ ?_ ?_, refused _ 7 _ rfl ?_ ?_ ?_, refused _ 8 _ rfl ?_ ?_ ?_, refused _ 9 _ rfl ?_ ?_ ?_,
        refused _ 10 _ rfl ?_ ?_ ?_⟩ <;> simp
    · have code (c : Nat) (params : List Byte) (hl : params.length ≤ 62) (hc : c < 256) :
          byteAt (requestImage c tag params) 0 = c := byteAt_requestImage_code hl hc tag
      have said (c : Instr) (image : List Byte) (y : State) (he : exec c s = complete (directRequest image s))
          (ht : takeRequest image s = respond .ok [] y) : exec c s = answered y := by
        rw [he, direct_taken h hr hi, ht]
      have param (c : Nat) (b : Byte) : byteAt (requestImage c tag [b]) 2 = b.toNat :=
        byteAt_requestImage_param c tag b [] (by simp)
      refine ⟨fun m => ?_, fun hw => ?_, fun hw hs => ?_, fun hw hs => ?_, fun ht hs => ?_, fun ht hs => ?_, fun ht => ?_,
        fun c hc => ?_, fun c hc => ?_, fun r => ?_⟩
      · have opens (t : State) (ht : openServiceRequest m.toNat (taken 2 [m]) = t) :
            takeRequest (requestImage 2 tag [m]) s = t := by
          rw [takeRequest_openService (code 2 [m] (by simp) (by decide)) hp, param]
          exact ht
        exact ⟨fun h1 h60 hs => direct _ 2 _ .ok _ rfl (by simp) (by decide) (opens _ (openServiceRequest_ok h1 h60 hs)) rfl,
          fun h1 h60 hs => direct _ 2 _ .ok _ rfl (by simp) (by decide) (opens _ (openServiceRequest_over h1 h60 hs))
            (endOvertime_req _),
          fun hm => direct _ 2 _ .badParam _ rfl (by simp) (by decide) (opens _ (openServiceRequest_bad hm)) rfl⟩
      · exact direct _ 3 _ .ok _ rfl (by simp) (by decide)
          ((takeRequest_closeService (code 3 [] (by simp) (by decide)) hp).trans (closeServiceRequest_closed hw)) rfl
      · exact direct _ 3 _ .ok _ rfl (by simp) (by decide)
          ((takeRequest_closeService (code 3 [] (by simp) (by decide)) hp).trans (closeServiceRequest_closes hw hs)) rfl
      · exact direct _ 3 _ .ok _ rfl (by simp) (by decide)
          ((takeRequest_closeService (code 3 [] (by simp) (by decide)) hp).trans (closeServiceRequest_over hw hs))
          (openIncident_req _ _)
      · exact said _ _ _ rfl ((takeRequest_testReport (code 8 [] (by simp) (by decide)) hp).trans
          (congrArg _ (testReport_begins ht hs)))
      · exact direct _ 8 _ .ok _ rfl (by simp) (by decide) ((takeRequest_testReport (code 8 [] (by simp) (by decide)) hp).trans
          (congrArg _ (testReport_waits ht hs))) rfl
      · exact direct _ 8 _ .ok _ rfl (by simp) (by decide) ((takeRequest_testReport (code 8 [] (by simp) (by decide)) hp).trans
          (congrArg _ (testReport_again ht))) rfl
      · exact said _ _ _ rfl ((takeRequest_reseedTamper (code 10 [c] (by simp) (by decide)) hp).trans
          (by rw [param]; exact reseedRequest_ok hc))
      · exact direct _ 10 _ .badParam _ rfl (by simp) (by decide)
          ((takeRequest_reseedTamper (code 10 [c] (by simp) (by decide)) hp).trans (by rw [param]; exact reseedRequest_bad hc)) rfl
      · have clears (t : State) (ht : clearBlockRequest r.toNat (taken 9 [r]) = t) :
            takeRequest (requestImage 9 tag [r]) s = t := by
          rw [takeRequest_clearBlock (code 9 [r] (by simp) (by decide)) hp, param]
          exact ht
        refine ⟨fun h0 h1 h2 h6 => ?_, fun hm => ⟨fun hs => ?_, fun hs => ?_⟩⟩
        · exact direct _ 9 _ .badParam _ rfl (by simp) (by decide)
            (clears _ (clearBlockRequest_bad (by simp [h0, h1, h2, h6]))) rfl
        · exact direct _ 9 _ .refusedState _ rfl (by simp) (by decide) (clears _ (clearBlockRequest_refused hm hs)) rfl
        · exact said _ _ _ rfl (clears _ (clearBlockRequest_ok hm hs))
  · intro t c ok
    refine ⟨takeRequest_badCode, takeRequest_early, fun hc => ?_, fun hp => ?_⟩
    · intro sec
      have bytes : be3 image 4 = sec := by simp only [sec, be3, be2]; ring
      refine ⟨fun hs => ?_, fun hs => ?_⟩
      · exact (takeRequest_setClock hc).trans (by rw [bytes]; exact setClockRequest_ok hs)
      · exact (takeRequest_setClock hc).trans (by rw [bytes]; exact setClockRequest_bad hs)
    · intro m window
      refine ⟨fun hc => ⟨fun h1 h60 hs => ?_, fun h1 h60 hs => ?_, fun hm => ?_⟩,
        fun hc => ⟨fun hw => ?_, fun hw hs => ?_, fun hw hs => ?_⟩,
        fun hc => ⟨fun ht => ?_, fun ht hs => ?_, fun ht hs => ?_⟩,
        fun hc => ⟨fun h0 h1 h2 h6 => ?_, fun hm => ⟨fun hs => ?_, fun hs => ?_⟩⟩, fun hc => ⟨fun hm => ?_, fun hm => ?_⟩⟩
      · exact (takeRequest_openService hc hp).trans (openServiceRequest_ok h1 h60 hs)
      · exact (takeRequest_openService hc hp).trans (openServiceRequest_over h1 h60 hs)
      · exact (takeRequest_openService hc hp).trans (openServiceRequest_bad hm)
      · exact (takeRequest_closeService hc hp).trans (closeServiceRequest_closed hw)
      · exact (takeRequest_closeService hc hp).trans (closeServiceRequest_closes hw hs)
      · exact (takeRequest_closeService hc hp).trans (closeServiceRequest_over hw hs)
      · exact (takeRequest_testReport hc hp).trans (congrArg _ (testReport_again ht))
      · exact (takeRequest_testReport hc hp).trans (congrArg _ (testReport_begins ht hs))
      · exact (takeRequest_testReport hc hp).trans (congrArg _ (testReport_waits ht hs))
      · exact (takeRequest_clearBlock hc hp).trans (clearBlockRequest_bad (by simp [h0, h1, h2, h6, m]))
      · exact (takeRequest_clearBlock hc hp).trans (clearBlockRequest_refused hm hs)
      · exact (takeRequest_clearBlock hc hp).trans (clearBlockRequest_ok hm hs)
      · exact (takeRequest_reseedTamper hc hp).trans (reseedRequest_ok hm)
      · exact (takeRequest_reseedTamper hc hp).trans (reseedRequest_bad hm)
  · refine ⟨clearSlotJam_absent, clearSlotJam_present, fun hc => clearFreezing_absent (r := .chuteBlocked) hc _,
      fun hf => clearFreezing_absent (r := .flapFault) hf _,
      fun hc => ⟨fun hf => ?_, fun hf => ?_⟩, fun hf => ⟨fun hc => ?_, fun hc => ?_⟩, clearAccountFault_absent,
      clearAccountFault_present⟩
    · exact clearFreezing_frozen (r := .chuteBlocked) hc _ ((frozen_iff _).mpr (.inr hf))
    · refine (clearFreezing_thaws (r := .chuteBlocked) hc _ (frozen_eq_false rfl hf)).trans ?_
      rw [show assignRelease (BlockReason.chuteBlocked == .chuteBlocked) = _ from funext assignRelease_chute]
      rfl
    · exact clearFreezing_frozen (r := .flapFault) hf _ ((frozen_iff _).mpr (.inl hc))
    · refine (clearFreezing_thaws (r := .flapFault) hf _ (frozen_eq_false hc rfl)).trans ?_
      rw [show assignRelease (BlockReason.flapFault == .chuteBlocked) = _ from funext assignRelease_flap]
      rfl

end Sys2Proof.Machine
end

section
/-!
PROOFS. The pages' roles and host writes (O55), host reads and the bytes of the live page (O56).
-/

namespace Sys2Proof.Machine

/-! ### Roles -/

theorem guardRole_config {s : State} {p : Nat} (lo : 3 ≤ p) (hi : p ≤ 5) :
    guardRole s p = if s.req.reading = none ∧ s.req.reload = .none then .passed else .vetoed := by
  rw [guardRole, if_neg (by omega), if_neg (by omega), if_neg (by omega), if_pos hi, configGuarded]
  cases s.req.reading <;> cases s.req.reload <;> rfl

theorem bankRole_eq (t : Tariff) (k : Bank) : bankRole t k =
    if t.bankSet = true ∧ t.bank ≠ k ∧ (t.activation = .none ∨ t.pendBank ≠ k) then .passed else .vetoed := by
  unfold bankRole
  refine if_congr ?_ rfl rfl
  simp only [Bool.and_eq_true, bne_iff_ne, Bool.not_eq_true', Bool.and_eq_false_iff, and_assoc, bne_eq_false_iff_eq,
    beq_eq_false_iff_ne, ne_eq]

theorem guardRole_free {s : State} {p : Nat} (h : 234 ≤ p) : guardRole s p = .passed := by
  rw [guardRole]
  repeat rw [if_neg (by omega)]

theorem guardRole_fixed {s : State} {p : Nat} (h : p = 0 ∨ p = 2 ∨ (6 ≤ p ∧ p ≤ 9) ∨ (74 ≤ p ∧ p ≤ 233)) :
    guardRole s p = .vetoed := by
  rcases h with rfl | rfl | ⟨lo, hi⟩ | ⟨lo, hi⟩
  · rfl
  · rfl
  · rw [guardRole, if_neg (by omega), if_neg (by omega), if_neg (by omega), if_neg (by omega), if_pos hi]
  · rw [guardRole, if_neg (by omega), if_neg (by omega), if_neg (by omega), if_neg (by omega), if_neg (by omega),
      if_neg (by omega), if_neg (by omega), if_pos hi]

/-! ### The request-page image -/

theorem pageWrap_mod (a i : Nat) : pageWrap a i % 64 = (a + i) % 64 := by
  unfold pageWrap
  omega

theorem imageWith_length (a : Nat) : ∀ (data image : List Byte) (i : Nat), (imageWith image a data i).length = image.length
  | [], _, _ => rfl
  | v :: rest, image, i => by rw [imageWith, imageWith_length a rest, List.length_set]

/-- A byte that no byte of the write goes to keeps its value. -/
theorem imageWith_getD_of_ne (a b : Nat) : ∀ (data image : List Byte) (i : Nat),
    (∀ j < data.length, b ≠ (a + (i + j)) % 64) → (imageWith image a data i).getD b 0 = image.getD b 0
  | [], _, _, _ => rfl
  | v :: rest, image, i, h => by
    have here : b ≠ (a + i) % 64 := h 0 (by simp)
    rw [imageWith, imageWith_getD_of_ne a b rest _ _ fun j hj => by
      have := h (j + 1) (by simpa using hj)
      rwa [show i + 1 + j = i + (j + 1) by omega]]
    rw [pageWrap_mod, List.getD_eq_getElem?_getD, List.getD_eq_getElem?_getD, List.getElem?_set_ne (Ne.symm here)]

/-- Each of the write's last 64 bytes stands at its place. -/
theorem imageWith_getD_stored (a : Nat) : ∀ (data image : List Byte) (i j : Nat), image.length = 64 →
    j < data.length → data.length ≤ j + 64 → (imageWith image a data i).getD ((a + (i + j)) % 64) 0 = data.getD j 0
  | v :: rest, image, i, 0, hl, _, hr => by
    rw [imageWith, imageWith_getD_of_ne a _ rest _ _ fun j hj => by simp only [List.length_cons] at hr; omega]
    rw [pageWrap_mod, List.getD_eq_getElem?_getD, Nat.add_zero, List.getElem?_set_self (by rw [hl]; omega)]
    rfl
  | v :: rest, image, i, j + 1, hl, hj, hr => by
    have next := imageWith_getD_stored a rest (image.set (pageWrap a i % 64) v) (i + 1) j (by rw [List.length_set, hl])
      (by simpa using hj) (by simp only [List.length_cons] at hr; omega)
    rw [show i + 1 + j = i + (j + 1) by omega] at next
    exact next

/-! ### Writes that the memory acknowledges -/

theorem hostArrives_acked {x : HostTxn} {s : State} (hp : s.start.phase ≠ .resetting) (hh : s.link.held = none)
    (hr : s.writer.phase.running = false) : hostArrives x true s = perform x false (confirmIfAwaiting s) := by
  rw [hostArrives, if_neg hp, if_neg (by simp [hh]), if_neg (by simp [hr]), if_pos rfl]

theorem writesCode_iff (a n : Nat) : writesCode a n = true ↔ ∃ i < n, pageWrap a i = 0x40 := by
  simp [writesCode]

theorem hostWrite_classed {m : Marks} {a : Nat} {data : List Byte} {e : WriteEnd} {s : State} (he : e ≠ .refusedAddress) :
    hostWrite m a data e s =
      classedWrite m a data e (s.onLink fun l => { l with hostAck := lastByteAcked s a e, hostData := [] }) := if_neg he

theorem classedWrite_empty (m : Marks) (a : Nat) (e : WriteEnd) (s : State) :
    classedWrite m a [] e s = endTxn m e (setAddress a s) := if_pos rfl

theorem classedWrite_passed {m : Marks} {a : Nat} {data : List Byte} {e : WriteEnd} {s : State} (hd : data ≠ [])
    (hg : guardRole s (a / 64) = .passed) : classedWrite m a data e s = passedWrite m a data e s := by
  rw [classedWrite, if_neg hd, hg]

theorem classedWrite_vetoed {m : Marks} {a : Nat} {data : List Byte} {e : WriteEnd} {s : State} (hd : data ≠ [])
    (hg : guardRole s (a / 64) = .vetoed) : classedWrite m a data e s = vetoedWrite m a data e s := by
  rw [classedWrite, if_neg hd, hg]

theorem lastByteAcked_passed {s : State} {a : Nat} (hg : guardRole s (a / 64) = .passed) :
    lastByteAcked s a .refusedByte = false := by rw [lastByteAcked, hg]; rfl

theorem lastByteAcked_vetoed {s : State} {a : Nat} (hg : guardRole s (a / 64) = .vetoed) :
    lastByteAcked s a .refusedByte = true := by rw [lastByteAcked, hg]; rfl

/-- What a passed write leaves that a stop has ended, or a not-acknowledge after its data. -/
def storedWrite (m : Marks) (a : Nat) (data : List Byte) (ok : Bool) (s : State) : State := { s with link := { s.link with
  mem := memStore s.link.mem a data, tracked := some (pageWrap a data.length)
  hostPtr := pageWrap a data.length, lastWriter := .host, stopTime := s.now
  image := if a / 64 = 1 then imageWith s.link.image a data 0 else s.link.image
  hostAck := ok, hostData := [], status := m.status, openTxn := none } }

theorem hostWrite_stored {m : Marks} {a : Nat} {data : List Byte} {e : WriteEnd} {ok : Bool} {s : State} (hd : data ≠ [])
    (hg : guardRole s (a / 64) = .passed) (he : (e = .stop ∧ ok = true) ∨ (e = .refusedByte ∧ ok = false)) :
    hostWrite m a data e s = triggerRequest a data (storedWrite m a data ok s) := by
  rcases he with ⟨rfl, rfl⟩ | ⟨rfl, rfl⟩
  · rw [hostWrite_classed (by simp), classedWrite_passed hd (by exact hg)]
    rfl
  · rw [hostWrite_classed (by simp), classedWrite_passed hd (by exact hg), lastByteAcked_passed hg]
    rfl

theorem triggerRequest_rests {a : Nat} {data : List Byte} {s : State}
    (h : ¬ (a / 64 = 1 ∧ (∃ i < data.length, pageWrap a i = 0x40) ∧ byteAt s.link.image 0 ≠ 0)) :
    triggerRequest a data s = s :=
  if_neg fun ⟨h1, hw, hb, _⟩ => h ⟨h1, (writesCode_iff ..).mp hw, hb⟩

theorem triggerRequest_takes {a : Nat} {data : List Byte} {s : State} (h1 : a / 64 = 1)
    (hw : ∃ i < data.length, pageWrap a i = 0x40) (hb : byteAt s.link.image 0 ≠ 0) (hi : s.req.st = .idle) :
    triggerRequest a data s = takeRequest s.link.image s := if_pos ⟨h1, (writesCode_iff ..).mpr hw, hb, hi⟩

/-- The request page is passed while the handler is IDLE alone. -/
theorem idle_of_passed {s : State} (h : guardRole s 1 = .passed) : s.req.st = .idle := by
  by_contra k
  exact absurd ((if_neg k : (if s.req.st = .idle then Role.passed else .vetoed) = .vetoed).symm.trans h) (by decide)

/-- Settles O55. -/
theorem hostWrites : Obligations.HostWrites := by
  unfold Obligations.HostWrites
  refine ⟨fun s p => ⟨rfl, fun h => guardRole_config h.1 h.2, fun k h => ?_, guardRole_free, guardRole_fixed⟩,
    fun image data a hl => ⟨(imageWith_length a data image 0).trans hl, fun i hi hr => ?_, fun b hb => ?_⟩,
    fun a data e s ha hp => ⟨fun k => rfl, fun hh hr => ?_⟩, fun a data held s => ?_⟩
  · rcases h with ⟨rfl, lo, hi⟩ | ⟨rfl, lo, hi⟩
    · rw [guardRole_bankA lo hi, bankRole_eq]
    · rw [guardRole_bankB lo hi, bankRole_eq]
  · have stored := imageWith_getD_stored a data image 0 i hl hi hr
    rwa [Nat.zero_add] at stored
  · exact imageWith_getD_of_ne a b data image 0 fun j hj => by rw [Nat.zero_add]; exact hb j hj
  · simp only [exec, execHostPassedWrite]
    rw [addressed_inside (.inr ha), hostArrives_acked hp hh hr]
    rfl
  · intro m write status ended goesOn
    have write_eq (e : WriteEnd) : write e = hostWrite m a data e s := rfl
    refine ⟨rfl, fun hd => ?_, fun hg hd => ?_, fun hg hd => ?_⟩
    · subst hd
      intro set
      refine ⟨rfl, rfl, rfl, fun hg => ?_⟩
      rw [write_eq, hostWrite_classed (by simp), classedWrite_empty, lastByteAcked_passed hg]
      rfl
    · refine ⟨fun e ok he => ?_, ?_, ?_⟩
      · intro stored requested
        have written : write e = triggerRequest a data (storedWrite m a data ok s) := hostWrite_stored hd hg he
        rw [written]
        refine ⟨fun hn => ?_, fun h1 => ?_⟩
        · have here : storedWrite m a data ok s = stored := by rw [storedWrite, if_neg hn]; rfl
          rw [here, triggerRequest_rests fun k => hn k.1]
        · have here : storedWrite m a data ok s = requested := by rw [storedWrite, if_pos h1]; rfl
          rw [here]
          exact ⟨fun ⟨hw, hb⟩ => triggerRequest_takes h1 hw hb (idle_of_passed (h1 ▸ hg)),
            fun k => triggerRequest_rests fun ⟨_, hw, hb⟩ => k ⟨hw, hb⟩⟩
      · rw [write_eq, hostWrite_classed (by simp), classedWrite_passed hd (by exact hg)]
        rfl
      · rw [write_eq, hostWrite_classed (by simp), classedWrite_passed hd (by exact hg)]
        rfl
    · refine ⟨?_, ?_, ?_, ?_⟩
      · rw [write_eq, hostWrite_classed (by simp), classedWrite_vetoed hd (by exact hg)]; rfl
      · rw [write_eq, hostWrite_classed (by simp), classedWrite_vetoed hd (by exact hg), lastByteAcked_vetoed hg]; rfl
      · rw [write_eq, hostWrite_classed (by simp), classedWrite_vetoed hd (by exact hg)]; rfl
      · rw [write_eq, hostWrite_classed (by simp), classedWrite_vetoed hd (by exact hg)]; rfl

end Sys2Proof.Machine
end

section
/-!
PROOFS. Host reads and address settings, RESETTING, and the bytes of the live page (O56).
-/

namespace Sys2Proof.Machine

/-! ### RESETTING -/

theorem whileRelaying_resetting {s : State} (h : s.start.phase = .resetting) (f : State → State) : whileRelaying s f = s :=
  if_pos h

theorem exec_busError_resetting {s : State} (h : s.start.phase = .resetting) (x : BrokenAt) :
    exec (.busError x) s = .next (refreshPins s) := by
  simp only [exec, execBusError]
  split
  · rw [whileRelaying_resetting h]; rfl
  · rw [addressed_inside (.inl h), whileRelaying_resetting h]; rfl
  · rw [addressed_inside (.inl h), whileRelaying_resetting h]; rfl
  · rw [whileRelaying_resetting h]; rfl

theorem exec_clockHoldLimit_resetting {s : State} (h : s.start.phase = .resetting) (x : HoldPoint) :
    exec (.clockHoldLimit x) s = .next (refreshPins s) := by
  simp only [exec, execClockHoldLimit]
  split
  · rw [whileRelaying_resetting h]; rfl
  · rw [whileRelaying_resetting h]; rfl
  · rw [addressed_inside (.inl h), whileRelaying_resetting h]; rfl
  · rw [addressed_inside (.inl h), whileRelaying_resetting h]; rfl
  · rw [whileRelaying_resetting h]; rfl

/-! ### Host transactions as they arrive -/

theorem exec_hostPassedWrite {s : State} {a : Addr} (ha : s.start.phase = .resetting ∨ a.toNat < 0x8000) (data : List Byte)
    (e : WriteEnd) (ack : Bool) : exec (.hostPassedWrite a data e ack) s =
      .next (refreshPins (settle (hostArrives (.write a.toNat data e) ack s))) := by
  simp only [exec, execHostPassedWrite]
  exact addressed_inside ha _

theorem exec_hostVetoedWrite {s : State} {a : Addr} (ha : s.start.phase = .resetting ∨ a.toNat < 0x8000) (data : List Byte)
    (e : WriteEnd) (ack : Bool) : exec (.hostVetoedWrite a data e ack) s =
      .next (refreshPins (settle (hostArrives (.write a.toNat data e) ack s))) := by
  simp only [exec, execHostVetoedWrite]
  exact addressed_inside ha _

theorem exec_hostAddressProbe_none (s : State) (v : HostCourse) : exec (.hostAddressProbe none v) s =
    .next (refreshPins (settle (hostArrives (.probe none v.again) v.ack s))) := by
  simp only [exec, execHostAddressProbe]
  rfl

theorem exec_hostAddressProbe_some {s : State} {a : Addr} (ha : s.start.phase = .resetting ∨ a.toNat < 0x8000)
    (v : HostCourse) : exec (.hostAddressProbe (some a) v) s =
      .next (refreshPins (settle (hostArrives (.probe (some a.toNat) v.again) v.ack s))) := by
  simp only [exec, execHostAddressProbe]
  exact addressed_inside ha _

theorem exec_hostRandomRead {s : State} {a : Addr} (ha : s.start.phase = .resetting ∨ a.toNat < 0x8000) (n : Nat)
    (v : HostCourse) : exec (.hostRandomRead a n v) s =
      .next (refreshPins (settle (hostArrives (.read a.toNat n v.again) v.ack s))) := by
  simp only [exec, execHostRandomRead]
  exact addressed_inside ha _

theorem exec_hostCurrentAddressRead (s : State) (n : Nat) (v : HostCourse) : exec (.hostCurrentAddressRead n v) s =
    .next (refreshPins (settle (hostArrives (.readCurrent n v.again) v.ack s))) := by
  simp only [exec, execHostCurrentAddressRead]
  rfl

/-! ### Sets of kinds -/

theorem kindCode_le (k : IncidentKind) : 1 ≤ kindCode k ∧ kindCode k ≤ 16 := by cases k <;> decide

/-- A bit above every bit of a number added to it. -/
theorem testBit_add_two_pow {n i : Nat} (h : n < 2 ^ i) (j : Nat) :
    (n + 2 ^ i).testBit j = (n.testBit j || decide (i = j)) := by
  have split : n + 2 ^ i = 2 ^ i * 1 ||| n := by rw [← Nat.two_pow_add_eq_or_of_lt h]; omega
  rw [split, Nat.testBit_or, Nat.mul_one, Nat.testBit_two_pow, Bool.or_comm]

/-- The bits that kinds of rising code set above those of `n`. -/
theorem testBit_foldl_kinds (slots : PerKind (Option Slot)) (p : Slot → Bool) (j : Nat) : ∀ (l : List IncidentKind) (n : Nat),
    l.Pairwise (fun a b => kindCode a < kindCode b) → (∀ k ∈ l, n < 2 ^ (kindCode k - 1)) →
    ((l.filterMap fun k => (slots.get k).map fun x => (k, x)).foldl
      (fun n x => if p x.2 then n + 2 ^ (kindCode x.1 - 1) else n) n).testBit j =
    (n.testBit j || l.any fun k => decide (kindCode k - 1 = j) && (slots.get k).any p)
  | [], n, _, _ => by simp
  | k :: rest, n, hp, hn => by
    have later := testBit_foldl_kinds slots p j rest
    obtain ⟨above, sorted⟩ := List.pairwise_cons.mp hp
    have low : ∀ m ∈ rest, n < 2 ^ (kindCode m - 1) := fun m hm => hn m (List.mem_cons_of_mem k hm)
    have here : n < 2 ^ (kindCode k - 1) := hn k (List.mem_cons_self ..)
    rw [List.filterMap_cons, List.any_cons]
    cases hk : slots.get k with
    | none => simpa using later n sorted low
    | some x =>
      by_cases hx : p x = true
      · have next : ∀ m ∈ rest, n + 2 ^ (kindCode k - 1) < 2 ^ (kindCode m - 1) := fun m hm => by
          have step : 2 ^ (kindCode k - 1 + 1) ≤ 2 ^ (kindCode m - 1) :=
            Nat.pow_le_pow_right (by decide) (by have := above m hm; have := kindCode_le k; omega)
          rw [Nat.pow_succ] at step
          omega
        simpa [hx, testBit_add_two_pow here, Bool.or_assoc] using later (n + 2 ^ (kindCode k - 1)) sorted next
      · simpa [hx] using later n sorted low

theorem kindMask_testBit (i : Incidents) (p : Slot → Bool) (k : IncidentKind) :
    (kindMask i p).testBit (kindCode k - 1) = (i.slots.get k).any p := by
  rw [kindMask, kindSlots, testBit_foldl_kinds i.slots p _ IncidentKind.list 0 (by decide) (fun m _ => by positivity)]
  cases k <;> simp [IncidentKind.list, kindCode]

/-! ### Rows of a page -/

/-- A number read back from the two bytes it was written in. -/
theorem be2_of_row {p : List Byte} {o n : Nat} (h : (p.drop o).take 2 = w16 n) : be2 p o = n % 65536 := by
  have at_ (i : Nat) (hi : i < 2) : p[o + i]? = (w16 n)[i]? := by
    rw [← h, List.getElem?_take_of_lt hi, List.getElem?_drop]
  have b0 : p.getD o 0 = b8 (n / 256) := by
    rw [List.getD_eq_getElem?_getD]; exact congrArg (·.getD 0) (at_ 0 (by decide))
  have b1 : p.getD (o + 1) 0 = b8 n := by
    rw [List.getD_eq_getElem?_getD]; exact congrArg (·.getD 0) (at_ 1 (by decide))
  rw [be2, byteAt, byteAt, b0, b1, b8_toNat, b8_toNat]
  omega

/-- The `i`-th of parts of three bytes each. -/
theorem drop_flatMap_three {α : Type} {f : α → List Byte} (hf : ∀ x, (f x).length = 3) :
    ∀ (l : List α) (i : Nat) (x : α), l[i]? = some x → ((l.flatMap f).drop (3 * i)).take 3 = f x
  | y :: rest, 0, x, h => by
    obtain rfl : y = x := by simpa using h
    rw [List.flatMap_cons, Nat.mul_zero, List.drop_zero, List.take_append_of_le_length (by rw [hf]), ← hf y,
      List.take_length]
  | y :: rest, i + 1, x, h => by
    rw [List.flatMap_cons, drop_past (by rw [hf]; omega), hf, show 3 * (i + 1) - 3 = 3 * i by omega]
    exact drop_flatMap_three hf rest i x (by simpa using h)

/-- The bytes that the view chosen puts behind the first four. -/
def viewBody (s : State) : Nat → List Byte
  | 1 => liveIncidents s
  | 2 => liveSlots s
  | 3 => liveSystem s
  | _ => liveCall s

theorem livePage_eq (s : State) :
    livePage s = fit 64 (livePrefix s (viewOf s.link.image) ++ viewBody s (viewOf s.link.image)) := rfl

/-- A page of view `v`: the first four bytes, the view's own, and 0 behind them. -/
theorem livePage_parts {s : State} {v : Nat} {l : List Byte} (hv : viewOf s.link.image = v) (hl : viewBody s v = l)
    (h : l.length ≤ 60) : livePage s = livePrefix s v ++ (l ++ List.replicate (60 - l.length) 0) := by
  have len : (livePrefix s v ++ l).length = l.length + 4 := by simp [livePrefix]
  rw [livePage_eq, hv, hl, fit_of_le (by omega), len, List.append_assoc, Nat.add_comm, Nat.sub_add_eq]

/-- The three bytes of a kind in view 2. -/
def slotRow (s : State) (k : IncidentKind) : List Byte :=
  match s.inc.slots.get k with
  | none => [b8 0, b8 0, b8 0]
  | some x => w16 x.seq ++ [b8 x.triggers]

theorem slotRow_length (s : State) (k : IncidentKind) : (slotRow s k).length = 3 := by
  unfold slotRow
  cases s.inc.slots.get k <;> simp

theorem liveSlots_eq (s : State) : liveSlots s = IncidentKind.list.flatMap (slotRow s) := rfl

@[simp] theorem liveSlots_length (s : State) : (liveSlots s).length = 48 := by
  rw [liveSlots_eq, List.length_flatMap, List.map_congr_left fun k _ => slotRow_length s k]
  rfl

theorem secondsLeft_eq (s : State) (t : Option Nat) : secondsLeft s t = (t.map fun e => (e - s.now) / 1000).getD 0 := by
  cases t <;> rfl

theorem viewOf_eq (image : List Byte) : viewOf image =
    if byteAt image 0x3F ≤ 3 then byteAt image 0x3F else 0 := rfl

theorem livePage_length (s : State) : (livePage s).length = 64 := fit_length 64 _

theorem livePage_prefix (s : State) : (livePage s).take 4 = livePrefix s (viewOf s.link.image) := by
  unfold livePage fit
  simp [livePrefix]

/-- Settles O56. -/
theorem hostReads : Obligations.HostReads := by
  unfold Obligations.HostReads
  intro s
  refine ⟨fun hp x a data e b n k => ?_, fun hp hh hr again => ?_, fun again held => ?_, ?_, ?_⟩
  · intro t
    have arrives (x : HostTxn) (ack : Bool) : hostArrives x ack s = t := hostArrives_resetting hp x ack
    refine ⟨?_, ?_, ?_, ?_, ?_, exec_busError_resetting hp, exec_clockHoldLimit_resetting hp⟩
    · rcases x with _ | x
      · rw [exec_hostAddressProbe_none, arrives]
      · rw [exec_hostAddressProbe_some (.inl hp), arrives]
    · rw [exec_hostRandomRead (.inl hp), arrives]
    · rw [exec_hostCurrentAddressRead, arrives]
    · rw [exec_hostPassedWrite (.inl hp), arrives]
    · rw [exec_hostVetoedWrite (.inl hp), arrives]
  · intro done
    have arrives (x : HostTxn) : .next (refreshPins (settle (hostArrives x true s))) = done x := by
      rw [hostArrives_acked hp hh hr]; rfl
    refine ⟨fun a n ha => ?_, fun n => ?_, fun a ha => ?_, ?_⟩
    · rw [exec_hostRandomRead (.inr ha)]; exact arrives _
    · rw [exec_hostCurrentAddressRead]; exact arrives _
    · rw [exec_hostAddressProbe_some (.inr ha)]; exact arrives _
    · rw [exec_hostAddressProbe_none]; exact arrives _
  · intro m ends read
    have ended (y : State) (hy : y.link.hostAck = true) (l : Link) (hl : y = { s with link := { l with hostAck := true } }) :
        endTxn m (if again = true then .repeatedStart else .stop) y = ends l := by
      subst hl
      cases again <;> rfl
    refine ⟨fun a n => ?_, fun n => ?_, fun a => ?_, ?_⟩
    · exact ended _ rfl _ rfl
    · exact ended _ rfl _ rfl
    · exact ended _ rfl _ rfl
    · exact ended _ rfl _ rfl
  · intro p v row f kinds
    have callView (hv : v = 0 ∨ 3 < v) : viewOf s.link.image = 0 := by
      rw [viewOf_eq]
      rcases hv with hv | hv
      · exact (if_pos (show v ≤ 3 by omega)).trans hv
      · exact if_neg (show ¬ v ≤ 3 by omega)
    have otherView (n : Nat) (hn : n ≤ 3) (hv : v = n) : viewOf s.link.image = n := by
      rw [viewOf_eq]
      exact (if_pos (show v ≤ 3 by omega)).trans hv
    refine ⟨livePage_length s, ?_, fun hv => ?_, fun hv => ?_, fun hv => ?_, fun hv => ?_⟩
    · exact livePage_prefix s
    · have len : (liveCall s).length = 54 := by simp [liveCall, packString]
      have parts := livePage_parts (callView hv) rfl (show (viewBody s 0).length ≤ 60 by show (liveCall s).length ≤ 60; omega)
      have body : p = _ := parts
      refine ⟨?_, ?_, ?_, ?_, ?_, ?_, ?_, ?_, ?_, ?_⟩
      all_goals
        simp [row, body, viewBody, livePrefix, liveCall, drop_past, packString, flagBit, f, List.take_append,
          List.take_of_length_le]
    · have len : (liveIncidents s).length = 40 := by
        unfold liveIncidents
        cases h : s.vault.summary <;> simp [h]
      have parts := livePage_parts (otherView 1 (by decide) hv) rfl
        (show (viewBody s 1).length ≤ 60 by show (liveIncidents s).length ≤ 60; omega)
      have body : p = _ := parts
      have masks (o : Nat) (w : Slot → Bool) (h : (p.drop o).take 2 = w16 (kindMask s.inc w)) : kinds o w := by
        intro k
        have := kindCode_le k
        rw [be2_of_row h, show 65536 = 2 ^ 16 by rfl, Nat.testBit_mod_two_pow, kindMask_testBit,
          decide_eq_true (by omega), Bool.true_and]
      refine ⟨masks _ _ ?_, masks _ _ ?_, masks _ _ ?_, masks _ _ ?_, ?_, ?_, ?_, ?_, ?_, ?_, ?_, fun hs => ?_,
        fun x hs => ?_⟩
      case refine_12 =>
        simp [row, body, viewBody, livePrefix, liveIncidents, drop_past, List.take_append, List.take_of_length_le, hs]
        rfl
      case refine_13 =>
        simp [row, body, viewBody, livePrefix, liveIncidents, drop_past, List.take_append, List.take_of_length_le, hs]
      all_goals
        simp [row, body, viewBody, livePrefix, liveIncidents, drop_past, flagBit, f, List.take_append,
          List.take_of_length_le, secondsLeft_eq]
    · intro k
      have shown : p = _ := livePage_parts (otherView 2 (by decide) hv) (l := liveSlots s) rfl (by simp)
      have here : (p.drop (4 + 3 * (kindCode k - 1))).take 3 = slotRow s k := by
        have := kindCode_le k
        rw [shown, drop_past (by simp [livePrefix]), show (livePrefix s 2).length = 4 from rfl, Nat.add_sub_cancel_left,
          List.drop_append_of_le_length (by rw [liveSlots_length]; omega),
          List.take_append_of_le_length (by rw [List.length_drop, liveSlots_length]; omega)]
        exact drop_flatMap_three (slotRow_length s) IncidentKind.list _ k (by cases k <;> rfl)
      refine ⟨fun hk => ?_, fun x hk => ?_⟩
      · exact here.trans (by rw [slotRow, hk]; rfl)
      · have len : (w16 x.seq ++ [b8 x.triggers]).length = 3 := by simp
        show (p.drop _).take _ = _
        rw [len, here, slotRow, hk]
    · have len : (liveSystem s).length = 45 := by
        unfold liveSystem
        by_cases h : s.tariff.activation = .none <;> simp [h, Six.toList, findingBytes]
      have parts := livePage_parts (otherView 3 (by decide) hv) rfl
        (show (viewBody s 3).length ≤ 60 by show (liveSystem s).length ≤ 60; omega)
      have body : p = _ := parts
      refine ⟨?_, ?_, ?_, ?_, fun ha => ?_, fun ha => ?_, ?_, ?_, ?_, ?_⟩
      case refine_5 =>
        simp [row, body, viewBody, livePrefix, liveSystem, Six.toList, ha]
        rfl
      case refine_6 => simp [row, body, viewBody, livePrefix, liveSystem, drop_past, Six.toList, ha]
      case refine_7 | refine_8 | refine_9 | refine_10 =>
        by_cases ha : s.tariff.activation = .none <;>
          simp [row, body, viewBody, livePrefix, liveSystem, drop_past, flagBit, f, List.take_append,
            List.take_of_length_le, Six.toList, findingBytes, ha]
      all_goals
        simp [row, body, viewBody, livePrefix, liveSystem, List.take_append, List.take_of_length_le, Six.toList]
  · intro two r f
    refine ⟨fun n => ⟨rfl, rfl, rfl, rfl, rfl⟩, fun x => rfl, fun x => rfl, fun l => ?_, rfl⟩
    refine congrArg (b8 l.length :: ·) (List.ext_getElem? fun i => ?_)
    by_cases hi : i < 10
    · rw [packCodes_getElem? l i hi]
      simp [hi]
    · rw [List.getElem?_eq_none (by rw [packCodes_length]; omega), List.getElem?_eq_none (by simpa using hi)]

end Sys2Proof.Machine
end

section
/-!
PROOFS. Held, resumed, broken-off and limited host transactions (O57).
-/

namespace Sys2Proof.Machine

/-! ### What the blocks' reactions leave of the port -/

theorem settle_link (s : State) : (settle s).link = s.link := (mild_settle (Mild.refl s)).link

theorem confirmIfAwaiting_link (s : State) : (confirmIfAwaiting s).link = s.link :=
  (mild_confirmIfAwaiting (Mild.refl s)).link

theorem failAttempt_link (s : State) : (failAttempt s).link = s.link := (mild_failAttempt (Mild.refl s)).link

theorem confirmWrite_link (s : State) : (confirmWrite s).link = s.link := (mild_confirmWrite (Mild.refl s)).link

/-! ### Transactions that meet an own one, or no acknowledge -/

theorem hostArrives_meets {x : HostTxn} {s : State} {ack : Bool} (hp : s.start.phase ≠ .resetting) (hh : s.link.held = none)
    (hr : s.writer.phase.running = true) : hostArrives x ack s = holdHost x s := by
  rw [hostArrives, if_neg hp, if_neg (by simp [hh]), if_pos hr]

theorem hostArrives_behind {x : HostTxn} {s : State} (hp : s.start.phase ≠ .resetting) (hh : s.link.held = none)
    (hr : s.writer.phase.running = false) (ho : s.link.lastWriter = .own) : hostArrives x false s = holdHost x s := by
  rw [hostArrives, if_neg hp, if_neg (by simp [hh]), if_neg (by simp [hr]), if_neg (by simp), if_pos ho]

theorem hostArrives_refused {x : HostTxn} {s : State} (hp : s.start.phase ≠ .resetting) (hh : s.link.held = none)
    (hr : s.writer.phase.running = false) (ho : s.link.lastWriter ≠ .own) :
    hostArrives x false s = relayNak (marksNow false s) x s := by
  rw [hostArrives, if_neg hp, if_neg (by simp [hh]), if_neg (by simp [hr]), if_neg (by simp), if_neg ho]

theorem marksNow_false (s : State) : marksNow false s = s.link.openTxn.getD noMarks := by simp [marksNow]

theorem marksNow_true (s : State) : marksNow true s = ⟨(s.link.openTxn.getD noMarks).vetoed, true⟩ := by simp [marksNow]

theorem marksNow_true_status (s : State) :
    (marksNow true s).status = if (s.link.openTxn.getD noMarks).vetoed = true then .vetoed else .held := by
  rw [marksNow_true]
  rfl

/-- The transaction ends in a repeated start to the memory. -/
def HostTxn.goesOn (x : HostTxn) : Bool := x.ending == .repeatedStart

theorem relayNak_eq (m : Marks) (x : HostTxn) (s : State) : relayNak m x s = { s with link := { s.link with
    held := none, hostAck := false, hostData := []
    openTxn := if x.goesOn = true then some m else none
    status := if x.goesOn = true then s.link.status else m.status } } := by
  unfold relayNak endTxn
  by_cases h : x.ending = .repeatedStart
  · simp [HostTxn.goesOn, h, State.onLink]
  · simp [HostTxn.goesOn, h, State.onLink]

/-! ### A held transaction goes on -/

/-- A held transaction carried out, its hold over. -/
def goesOnHeld (x : HostTxn) (s : State) : State := perform x true { s with link := { s.link with
  held := none, holdSum := s.link.holdSum + (s.now - s.link.holdSince) } }

theorem performHeld_some {s : State} {x : HostTxn} (h : s.link.held = some x) : performHeld s = goesOnHeld x s := by
  simp only [performHeld, h]
  rfl

theorem forwardHeld_acked {s : State} {x : HostTxn} (h : s.link.held = some x) : forwardHeld true s = goesOnHeld x s := by
  simp only [forwardHeld, h, if_true, performHeld_some h]

theorem forwardHeld_behind {s : State} {x : HostTxn} (h : s.link.held = some x) (ho : s.link.lastWriter = .own) :
    forwardHeld false s = s := by
  simp only [forwardHeld, h, Bool.false_eq_true, if_false, ho, if_true]

theorem forwardHeld_refused {s : State} {x : HostTxn} (h : s.link.held = some x) (ho : s.link.lastWriter ≠ .own) :
    forwardHeld false s = relayNak (marksNow true s) x s := by
  simp only [forwardHeld, h, Bool.false_eq_true, if_false, if_neg ho]

theorem resume_held {s : State} {x : HostTxn} (h : s.link.held = some x) (ack : Bool) :
    resume ack s = settle (forwardHeld ack (settle s)) := if_pos (by simp [h])

theorem exec_memoryPoll {s : State} (h : s.start.rstHeld = false) (ack : Bool) :
    exec (.memoryPoll ack) s = .next (refreshPins (memoryPoll ack s)) := by
  simp only [exec, execMemoryPoll]
  exact complete_running h rfl

theorem memoryPoll_refused (s : State) : memoryPoll false s = settle s := if_neg (by simp)

theorem memoryPoll_polling {s : State} {x : HostTxn} (h : s.link.held = some x) (hp : s.writer.phase = .polling) :
    memoryPoll true s = settle (goesOnHeld x s) := by
  have answered : memoryPoll true s = pollAnswered s := if_pos rfl
  rw [answered, ← performHeld_some h]
  simp only [pollAnswered, hp]
  rw [if_pos (by simp [h])]

theorem memoryPoll_idle {s : State} {x : HostTxn} (h : s.link.held = some x) (hp : s.writer.phase = .idle) :
    memoryPoll true s = settle (goesOnHeld x s) := by
  have answered : memoryPoll true s = pollAnswered s := if_pos rfl
  rw [answered, ← performHeld_some h]
  simp only [pollAnswered, hp]

theorem memoryPoll_awaiting {s : State} (hp : s.writer.phase = .awaiting) :
    memoryPoll true s = resume true (confirmWrite s) := by
  have answered : memoryPoll true s = pollAnswered s := if_pos rfl
  rw [answered]
  simp only [pollAnswered, hp]

/-- The own write that awaited it is confirmed, and what follows from that done, before the held transaction goes on. -/
theorem resume_confirmed {s : State} {x : HostTxn} (h : s.link.held = some x) (hp : s.writer.phase = .awaiting) :
    resume true (confirmWrite s) = settle (goesOnHeld x (confirmIfAwaiting s)) := by
  have kept : (confirmWrite s).link.held = some x := by rw [confirmWrite_link, h]
  rw [resume_held kept, forwardHeld_acked (by rw [settle_link, kept]), confirmIfAwaiting, if_pos hp]

theorem memoryPoll_acked {s : State} {x : HostTxn} (h : s.link.held = some x) (hr : s.writer.phase.running = false) :
    memoryPoll true s = settle (goesOnHeld x (confirmIfAwaiting s)) := by
  have rests (hn : s.writer.phase ≠ .awaiting) : confirmIfAwaiting s = s := if_neg hn
  cases hp : s.writer.phase with
  | polling => rw [memoryPoll_polling h hp, rests (by simp [hp])]
  | idle => rw [memoryPoll_idle h hp, rests (by simp [hp])]
  | awaiting => rw [memoryPoll_awaiting hp, resume_confirmed h hp]
  | writing p d => simp [hp, OwnPhase.running] at hr
  | reading p => simp [hp, OwnPhase.running] at hr

theorem exec_ownWriteConfirmed {s : State} (h : s.start.rstHeld = false) (ha : s.writer.phase = .awaiting) :
    exec .ownWriteConfirmed s = .next (refreshPins (resume true (confirmWrite s))) := by
  simp only [exec, execOwnWriteConfirmed]
  exact complete_running h (if_pos ha)

theorem exec_ownReadComplete {s : State} {p : Nat} (h : s.start.rstHeld = false) (hr : s.writer.phase = .reading p) :
    exec .ownReadComplete s = .next (refreshPins (resume true (readDone p s))) := by
  simp only [exec, execOwnReadComplete]
  exact complete_running h (by simp only [hr])

theorem exec_ownAttemptFailure {s : State} (h : s.start.rstHeld = false) (x : OwnNak) :
    exec (.ownAttemptFailure x) s = .next (refreshPins (ownFailure x.at_ x.ack s)) := by
  simp only [exec, execOwnAttemptFailure]
  exact complete_running h rfl

theorem ownFailure_reading {s : State} {p : Nat} (h : s.writer.phase = .reading p) (n : NakAt) (k : Bool) :
    ownFailure n k s = resume k (failAttempt (loseAddress s)) := by simp only [ownFailure, h]

theorem ownFailure_writing {s : State} {p : Nat} {d : List Byte} (h : s.writer.phase = .writing p d) (n : NakAt) (k : Bool) :
    ownFailure n k s = resume k (failAttempt (s.onLink fun l => { l with tracked := pointerAtNak p d.length n })) := by
  simp only [ownFailure, h]

theorem ownFailure_polling {s : State} {d : Nat} (h : s.writer.phase = .polling) (hd : s.writer.limit = some d) (n : NakAt)
    (k : Bool) : ownFailure n k s = resume k (failAttempt (s.reach d)) := by simp only [ownFailure, h, hd, onExpiry_some]

theorem pointerAtNak_data {p n len : Nat} (h : n < len) : pointerAtNak p len (.atData n) = some (pageWrap p n) := by
  rw [pointerAtNak, Nat.min_eq_left (by omega)]

/-! ### Memory faults -/

theorem exec_memoryFault {s : State} {d : Nat} (h : s.start.rstHeld = false) (hd : faultTime s = some d) :
    exec .memoryFault s = .next (refreshPins (settle (takeMemoryFault (s.reach d)))) := by
  simp only [exec, execMemoryFault]
  exact complete_expiry h hd

/-- A fault counted and the held transaction refused. -/
def faulted (s : State) : State :=
  releaseHost (s.onLink fun l => { l with memFaults := bump 255 l.memFaults, lastWriter := .none })

theorem releaseHost_held {s : State} (h : s.link.held.isSome = true) : releaseHost s = { s with link := { s.link with
    held := none, openTxn := none, hostAck := false, hostData := []
    status := if (s.link.openTxn.getD noMarks).vetoed = true then .vetoed else .held } } := by
  rw [releaseHost, if_pos h, marksNow_true_status]
  rfl

theorem takeMemoryFault_idle {s : State} (h : s.writer.phase = .idle) : takeMemoryFault s = faulted s := by
  simp only [takeMemoryFault, h]
  rfl

theorem takeMemoryFault_polling {s : State} (h : s.writer.phase = .polling) : takeMemoryFault s = failAttempt (faulted s) := by
  simp only [takeMemoryFault, h]
  rfl

theorem takeMemoryFault_awaiting {s : State} (h : s.writer.phase = .awaiting) :
    takeMemoryFault s = failAttempt (unstore (faulted s)) := by
  simp only [takeMemoryFault, h]
  rfl

theorem unstore_none {s : State} (h : s.writer.earlier = none) : unstore s = s := by simp only [unstore, h]

theorem unstore_some {s : State} {p : Nat} {old : List Byte} (h : s.writer.earlier = some (p, old)) :
    unstore s = s.onLink fun l => { l with mem := memStore l.mem p old } := by simp only [unstore, h]

theorem faultTime_idle {s : State} (h : s.writer.phase = .idle) (hh : s.link.held.isSome = true)
    (ho : s.link.lastWriter = .own) : faultTime s = some (s.link.stopTime + 10) := by
  simp only [faultTime, h]
  exact if_pos ⟨hh, ho⟩

theorem faultTime_polling {s : State} (h : s.writer.phase = .polling) : faultTime s = s.writer.limit := by
  simp only [faultTime, h]

theorem faultTime_awaiting {s : State} (h : s.writer.phase = .awaiting) : faultTime s = s.writer.limit := by
  simp only [faultTime, h]

/-! ### Bus errors and the hold limit -/

theorem whileRelaying_out {s : State} (h : s.start.phase ≠ .resetting) (f : State → State) : whileRelaying s f = f s :=
  if_neg h

theorem exec_busError {s : State} {x : BrokenAt} (hp : s.start.phase ≠ .resetting)
    (ha : ∀ a ∈ (Instr.busError x).wordAddresses, a.toNat < 0x8000) :
    exec (.busError x) s = .next (refreshPins (settle (busBroken x s))) := by
  simp only [exec, execBusError]
  split
  · rw [whileRelaying_out hp]; rfl
  · rw [addressed_inside (.inr (ha _ (by simp [Instr.wordAddresses]))), whileRelaying_out hp]; rfl
  · rw [addressed_inside (.inr (ha _ (by simp [Instr.wordAddresses, addressList]))), whileRelaying_out hp]; rfl
  · rw [whileRelaying_out hp]; rfl

theorem exec_clockHoldLimit_acknowledge {s : State} (hp : s.start.phase ≠ .resetting) :
    exec (.clockHoldLimit .atAcknowledge) s = .next (refreshPins (holdLimit .atAcknowledge s)) := by
  simp only [exec, execClockHoldLimit]
  rw [whileRelaying_out hp]
  rfl

theorem exec_clockHoldLimit_inside {s : State} {x : HoldPoint} (hp : s.start.phase ≠ .resetting) (hx : x ≠ .atAcknowledge)
    (ha : ∀ a ∈ (Instr.clockHoldLimit x).wordAddresses, a.toNat < 0x8000) :
    exec (.clockHoldLimit x) s = .next (refreshPins (settle (holdLimit x s))) := by
  simp only [exec, execClockHoldLimit]
  split
  · exact absurd rfl hx
  · rw [whileRelaying_out hp]; rfl
  · rw [addressed_inside (.inr (ha _ (by simp [Instr.wordAddresses]))), whileRelaying_out hp]; rfl
  · rw [addressed_inside (.inr (ha _ (by simp [Instr.wordAddresses, addressList]))), whileRelaying_out hp]; rfl
  · rw [whileRelaying_out hp]; rfl

/-- A bus error where nothing is held and no own transaction runs. -/
theorem busBroken_free {x : BrokenAt} {s t : State} (hh : s.link.held = none) (hr : s.writer.phase.running = false)
    (hx : breakOff x s = t) (ht : t.link.held = none) :
    busBroken x s = { t with link := { t.link with openTxn := none, status := .busError } } := by
  subst hx
  rw [busBroken, if_neg (by simp [hh, hr])]
  simp only [State.onLink, ← ht]

/-- One that is held, or that meets a running own transaction, stands at its device address. -/
theorem busBroken_held (x : BrokenAt) {s : State} (h : s.link.held.isSome = true ∨ s.writer.phase.running = true) :
    busBroken x s = { s with link := { s.link with
      held := none, tracked := none, openTxn := none, status := .busError } } := by
  rw [busBroken, if_pos (by simpa using h)]
  rfl

theorem holdLimit_acknowledge {s : State} (h : s.link.held.isSome = true) :
    holdLimit .atAcknowledge s = releaseHost (s.reach (holdDue s.link)) := by
  rw [holdLimit, if_pos rfl, if_pos h]

theorem holdLimit_unheld {s : State} (h : s.link.held = none) : holdLimit .atAcknowledge s = s := by
  rw [holdLimit, if_pos rfl, if_neg (by simp [h])]

theorem holdLimit_inside {x : HoldPoint} {s : State} (hx : x ≠ .atAcknowledge) (hh : s.link.held = none)
    (hr : s.writer.phase.running = false) : holdLimit x s = limitInside x (confirmIfAwaiting s) := by
  rw [holdLimit, if_neg hx, if_neg (by simp [hh, hr])]

theorem breakOff_write_passed {a : Addr} {data : List Byte} {s : State}
    (h : guardRole (confirmIfAwaiting s) (a.toNat / 64) = .passed) :
    breakOff (.inWrite a data) s = brokenPassed a.toNat data (confirmIfAwaiting s) := by simp only [breakOff, h]

theorem breakOff_write_vetoed {a : Addr} {data : List Byte} {s : State}
    (h : guardRole (confirmIfAwaiting s) (a.toNat / 64) = .vetoed) :
    breakOff (.inWrite a data) s = brokenVetoed a.toNat data (confirmIfAwaiting s) := by simp only [breakOff, h]

theorem cutWrite_passed {a : Nat} {data : List Byte} {s : State} (h : guardRole s (a / 64) = .passed) :
    cutWrite a data s = endByLimit false [] (imagePassed a data (brokenPassed a data s)) := by simp only [cutWrite, h]

theorem cutWrite_vetoed {a : Nat} {data : List Byte} {s : State} (h : guardRole s (a / 64) = .vetoed) :
    cutWrite a data s = s := by simp only [cutWrite, h]

theorem goesOn_again (again : Bool) :
    ((if again = true then WriteEnd.repeatedStart else .stop) == WriteEnd.repeatedStart) = again := by cases again <;> rfl

/-- Settles O57: what arrives is held or refused; what is held goes on or is forwarded once the end of the own transaction has had
its effects; and a break or the hold limit leaves the port as its place says. -/
theorem heldAndBrokenTransactions : Obligations.HeldAndBrokenTransactions := by
  unfold Obligations.HeldAndBrokenTransactions
  intro s hp m heldStatus y next
  have confirmed : confirmIfAwaiting s = y := rfl
  have link : y.link = s.link := confirmIfAwaiting_link s
  clear_value y
  refine ⟨fun a data e n again ha hh => ?_, fun x h hx => ?_, fun a data n ha => ?_, fun a data n ha => ?_⟩
  · intro waits meets
    have met (c : Bool → Instr) (x : HostTxn) (g : Bool) (hg : x.goesOn = g)
        (hc : ∀ k, exec (c k) s = next (hostArrives x k s)) : meets c x g := by
      subst hg
      refine ⟨fun hr k => ?_, fun hr => ⟨fun ho => ?_, fun ho => ?_⟩⟩
      · rw [hc, hostArrives_meets hp hh hr]; rfl
      · rw [hc, hostArrives_behind hp hh hr ho]; rfl
      · rw [hc, hostArrives_refused hp hh hr ho, relayNak_eq, marksNow_false]
        simp only [hh]
        rfl
    refine ⟨met _ _ _ rfl fun k => exec_hostPassedWrite (.inr ha) data e k,
      met _ _ _ rfl fun k => exec_hostVetoedWrite (.inr ha) data e k,
      met _ _ _ (goesOn_again again) fun k => exec_hostAddressProbe_none s ⟨k, again⟩,
      met _ _ _ (goesOn_again again) fun k => exec_hostAddressProbe_some (.inr ha) ⟨k, again⟩,
      met _ _ _ (goesOn_again again) fun k => exec_hostRandomRead (.inr ha) n ⟨k, again⟩,
      met _ _ _ (goesOn_again again) fun k => exec_hostCurrentAddressRead s n ⟨k, again⟩⟩
  · intro again goes forwarded
    have hg : x.goesOn = again := by
      cases x with
      | write a d e => rfl
      | probe a b => exact goesOn_again b
      | read a n b => exact goesOn_again b
      | readCurrent n b => exact goesOn_again b
    have fwd (k : Bool) (z : State) (hz : z.link.held = some x) (ho : z.link.openTxn = s.link.openTxn) :
        forwardHeld k z = forwarded k z := by
      cases k
      · by_cases hw : z.link.lastWriter = .own
        · exact (forwardHeld_behind hz hw).trans (if_pos hw).symm
        · rw [forwardHeld_refused hz hw, relayNak_eq, marksNow_true, ho, hg]
          exact (if_neg hw).symm
      · exact forwardHeld_acked hz
    have resumed (k : Bool) (t : State) (ht : t.link.held = some x) (ho : t.link.openTxn = s.link.openTxn) :
        resume k t = settle (forwarded k (settle t)) := by
      rw [resume_held ht, fwd k _ (by rw [settle_link, ht]) (by rw [settle_link, ho])]
    have failed (n : NakAt) (k : Bool) (t u : State) (hu : t = u) (he : ownFailure n k s = resume k (failAttempt t))
        (ht : t.link.held = some x) (ho : t.link.openTxn = s.link.openTxn) :
        exec (.ownAttemptFailure ⟨n, k⟩) s = next (forwarded k (settle (failAttempt u))) := by
      rw [exec_ownAttemptFailure h, he, resumed k _ (by rw [failAttempt_link, ht]) (by rw [failAttempt_link, ho]), hu]
    refine ⟨fun hr => ?_, fun hw => ?_, ?_, fun p hr => ⟨?_, fun n k => ?_⟩, fun p d hw k => ⟨?_, fun n hn => ?_⟩,
      fun d hw hl n k => ?_, fun d => ?_⟩
    · rw [exec_memoryPoll h, memoryPoll_acked hx hr, confirmed]; rfl
    · rw [exec_ownWriteConfirmed h hw, resume_confirmed hx hw, confirmed]; rfl
    · rw [exec_memoryPoll h, memoryPoll_refused]
    · rw [exec_ownReadComplete h hr, resumed true _ (by rw [readDone_link]; exact hx) (by rw [readDone_link])]
    · exact failed n k _ _ rfl (ownFailure_reading hr n k) hx rfl
    · exact failed .inAddress k _ _ rfl (ownFailure_writing hw .inAddress k) hx rfl
    · refine failed (.atData n) k _ _ ?_ (ownFailure_writing hw (.atData n) k) hx rfl
      rw [pointerAtNak_data hn]
      rfl
    · exact failed n k _ _ rfl (ownFailure_polling hw hl n k) hx rfl
    · intro refused
      have fault : faulted (s.reach d) = refused s.link.mem := by
        rw [faulted, releaseHost_held (by simp [State.onLink, State.reach, hx])]
        rfl
      refine ⟨fun hi ho hd => ?_, fun hw hl => ?_, fun hw hl => ⟨fun he => ?_, fun p old he => ?_⟩⟩
      · rw [exec_memoryFault h (faultTime_idle hi (by simp [hx]) ho), ← hd, takeMemoryFault_idle (by exact hi), fault]
      · rw [exec_memoryFault h ((faultTime_polling hw).trans hl), takeMemoryFault_polling (by exact hw), fault]
      · rw [exec_memoryFault h ((faultTime_awaiting hw).trans hl), takeMemoryFault_awaiting (by exact hw), fault,
          unstore_none (by exact he)]
      · rw [exec_memoryFault h ((faultTime_awaiting hw).trans hl), takeMemoryFault_awaiting (by exact hw), fault,
          unstore_some (by exact he)]
        rfl
  · intro broken
    refine ⟨fun hh hr => ?_, fun hk x hx => ?_⟩
    · intro readFrom
      have hy : y.link.held = none := by rw [link, hh]
      have broke (x : BrokenAt) (t u : State) (hx : breakOff x s = t) (ht : t.link.held = none)
          (hw : ∀ a ∈ (Instr.busError x).wordAddresses, a.toNat < 0x8000) (hu : broken t t.link = u) :
          exec (.busError x) s = next u := by
        rw [exec_busError hp hw, busBroken_free hh hr hx ht, ← hu]
      refine ⟨?_, ?_, fun hg => ?_, fun hg => ?_, ?_, ?_⟩
      · exact broke _ (loseAddress s) _ rfl hh (by simp [Instr.wordAddresses]) rfl
      · exact broke _ (loseAddress y) _ (by rw [← confirmed]; rfl) hy (by simp [Instr.wordAddresses]) rfl
      · have passed := breakOff_write_passed (a := a) (data := data) (s := s) (by rw [confirmed]; exact hg)
        rw [confirmed] at passed
        exact broke _ _ _ passed hy (by simpa [Instr.wordAddresses] using ha) rfl
      · have vetoed := breakOff_write_vetoed (a := a) (data := data) (s := s) (by rw [confirmed]; exact hg)
        rw [confirmed] at vetoed
        exact broke _ _ _ vetoed hy (by simpa [Instr.wordAddresses] using ha) rfl
      · exact broke _ (brokenRead a.toNat n y) _ (by rw [← confirmed]; rfl) hy
          (by simpa [Instr.wordAddresses, addressList] using ha) rfl
      · have from_ : breakOff (.inRead none n) s = brokenRead y.link.hostPtr n y := by rw [link, ← confirmed]; rfl
        exact broke _ _ _ from_ hy (by simp [Instr.wordAddresses, addressList]) rfl
    · have broke (hw : ∀ a ∈ (Instr.busError x).wordAddresses, a.toNat < 0x8000) :
          exec (.busError x) s = next (broken s { s.link with held := none, tracked := none }) := by
        rw [exec_busError hp hw, busBroken_held x hk]
      rcases hx with ⟨k, rfl⟩ | rfl | rfl | rfl
      · exact broke (by simp [Instr.wordAddresses])
      · exact broke (by simpa [Instr.wordAddresses] using ha)
      · exact broke (by simpa [Instr.wordAddresses, addressList] using ha)
      · exact broke (by simp [Instr.wordAddresses, addressList])
  · intro refused cut
    have ended (ack : Bool) (bytes : List Byte) (z : State) (hz : z.link.openTxn = s.link.openTxn) :
        endByLimit ack bytes z = { z with link := { z.link with
          hostAck := ack, hostData := bytes, openTxn := none, status := heldStatus } } := by
      rw [endByLimit, marksNow_true_status, hz]
      rfl
    refine ⟨fun hh => ?_, fun hh => ?_, fun hh hr => ?_⟩
    · rw [exec_clockHoldLimit_acknowledge hp, holdLimit_acknowledge hh, releaseHost_held (by exact hh)]
      rfl
    · rw [exec_clockHoldLimit_acknowledge hp, holdLimit_unheld hh]
    · have limited (x : HoldPoint) (t : State) (hx : x ≠ .atAcknowledge) (ht : limitInside x y = t)
          (hw : ∀ a ∈ (Instr.clockHoldLimit x).wordAddresses, a.toNat < 0x8000) : exec (.clockHoldLimit x) s = next t := by
        rw [exec_clockHoldLimit_inside hp hx hw, holdLimit_inside hx hh hr, confirmed, ht]
      have opened : y.link.openTxn = s.link.openTxn := by rw [link]
      refine ⟨?_, fun hg => ?_, fun hg => ?_, ?_, ?_⟩
      · exact limited _ _ (by simp) (ended false [] (loseAddress y) opened) (by simp [Instr.wordAddresses])
      · refine limited _ _ (by simp) ?_ (by simpa [Instr.wordAddresses] using ha)
        exact (cutWrite_passed hg).trans (ended false [] (imagePassed a.toNat data (brokenPassed a.toNat data y)) opened)
      · exact limited _ _ (by simp) (cutWrite_vetoed hg) (by simpa [Instr.wordAddresses] using ha)
      · exact limited _ _ (by simp) (ended true _ _ opened) (by simpa [Instr.wordAddresses, addressList] using ha)
      · exact limited _ _ (by simp) (ended true _ _ opened) (by simp [Instr.wordAddresses, addressList])

end Sys2Proof.Machine
end

section
/-!
PROOFS. The record writer's own transactions (O58), attempts that fail and items that leave (O59).
-/

namespace Sys2Proof.Machine

/-! ### Starting -/

theorem mayStart_iff {s : State} {i : Item} {rest : List Item} (h : s.writer.queue = i :: rest) : mayStart s = true ↔
    s.writer.phase = .idle ∧ s.link.held = none ∧ s.link.openTxn = none ∧
      (s.pfw = false ∨ s.writer.begun = true ∨ isCheckpoint i = true) := by
  simp only [mayStart, startAllowed, h, Bool.and_eq_true, Bool.or_eq_true, Bool.not_eq_true', beq_iff_eq]
  tauto

theorem ownStart_acked {s : State} (h : mayStart s = true) : ownStart true s = beginTransaction s := by
  rw [ownStart, if_pos h, if_pos rfl]

theorem ownStart_polls {s : State} (h : mayStart s = true) : ownStart false s = { s with writer := { s.writer with
    begun := true, phase := .polling, limit := some (s.now + 10) } } := by
  rw [ownStart, if_pos h, if_neg (by simp)]
  rfl

theorem ownStart_rests {s : State} (h : ¬ mayStart s = true) (k : Bool) : ownStart k s = s := if_neg h

theorem exec_ownTransactionStart {s : State} (h : s.start.rstHeld = false) (k : Bool) :
    exec (.ownTransactionStart k) s = .next (refreshPins (ownStart k s)) := by
  simp only [exec, execOwnTransactionStart]
  exact complete_running h rfl

theorem beginTransaction_head {s : State} {i : Item} {rest : List Item} (h : s.writer.queue = i :: rest) :
    beginTransaction s = { s with writer := { s.writer with
      phase := transactionOf s i, begun := true, taken := true, limit := none } } := by
  simp only [beginTransaction, h, State.onWriter]

/-! ### Ends of a transaction -/

theorem exec_ownWriteStop {s : State} {a : Nat} {d : List Byte} (h : s.start.rstHeld = false)
    (hw : s.writer.phase = .writing a d) : exec .ownWriteStop s = .next (refreshPins { s with
      link := { s.link with
        mem := memStore s.link.mem a d, tracked := some (pageWrap a d.length), lastWriter := .own, stopTime := s.now }
      writer := { s.writer with
        phase := .awaiting, limit := some (s.now + pollLimit)
        earlier := some (a, bytesUnder s.link.mem a d.length) } }) := by
  simp only [exec, execOwnWriteStop]
  exact complete_running h (by simp only [ownWriteStop, hw]; rfl)

theorem itemLeaves_head {s : State} {i : Item} {rest : List Item} (h : s.writer.queue = i :: rest) : itemLeaves s =
    { s with writer := { s.writer with
      queue := rest, phase := .idle, begun := false, taken := false, part := 0, tries := 0, limit := none, earlier := none } } := by
  simp only [itemLeaves, State.onWriter, h, List.tail_cons]

theorem confirmWrite_head {s : State} {i : Item} {rest : List Item} (h : s.writer.queue = i :: rest) : confirmWrite s =
    if isCollection i = true ∧ s.writer.part = 0 then
      { s with writer := { s.writer with phase := .idle, part := 1, tries := 0, limit := none, earlier := none } }
    else itemWritten i { s with writer := { s.writer with
      queue := rest, phase := .idle, begun := false, taken := false, part := 0, tries := 0, limit := none, earlier := none } } := by
  rw [← itemLeaves_head h]
  simp only [confirmWrite, h, State.onWriter]

theorem failAttempt_head {s : State} {i : Item} {rest : List Item} (h : s.writer.queue = i :: rest) : failAttempt s =
    if s.writer.tries + 1 < 3 then
      { s with writer := { s.writer with phase := .idle, tries := s.writer.tries + 1, limit := none, earlier := none } }
    else itemDropped i { s with writer := { s.writer with
      queue := rest, phase := .idle, begun := false, taken := false, part := 0, tries := 0, limit := none, earlier := none } } := by
  rw [← itemLeaves_head h]
  simp only [failAttempt, h, State.onWriter, attemptLimit]

theorem readDone_head {s : State} {f : ReadFor} {p : Nat} {rest : List Item} (h : s.writer.queue = .read f p :: rest) (a : Nat) :
    readDone a s = deliver f p (some (memLoad s.link.mem a 64)) { s with
      link := { s.link with tracked := some ((a + 64) % 32768) }
      writer := { s.writer with
        queue := rest, phase := .idle, begun := false, taken := false, part := 0, tries := 0, limit := none
        earlier := none } } := by
  simp only [readDone, h, itemLeaves, State.onLink, State.onWriter, List.tail_cons]
  rfl

/-- With no host transaction held, the blocks' reactions are all that follows. -/
theorem resume_unheld {s : State} (h : s.link.held = none) (ack : Bool) : resume ack s = settle s :=
  if_neg (by simp [h])

theorem memoryPoll_begins {s : State} (hp : s.writer.phase = .polling) (hh : s.link.held = none) :
    memoryPoll true s = settle (if s.link.openTxn = none then beginTransaction s else s) := by
  have answered : memoryPoll true s = pollAnswered s := if_pos rfl
  rw [answered]
  simp only [pollAnswered, hp]
  rw [if_neg (by simp [hh])]

/-! ### The bytes of an own transaction -/

theorem foldl_toNat_add : ∀ (l : List Byte) (n : Nat), l.foldl (fun v b => v + b.toNat) n = n + (l.map (·.toNat)).sum
  | [], n => rfl
  | b :: rest, n => by rw [List.foldl_cons, foldl_toNat_add rest, List.map_cons, List.sum_cons, Nat.add_assoc]

theorem w16_mod (n : Nat) : w16 (n % 65536) = w16 n := by
  have same (a b : Nat) (h : a % 256 = b % 256) : b8 a = b8 b := BitVec.eq_of_toNat_eq (by rw [b8_toNat, b8_toNat, h])
  rw [w16, w16, same (n % 65536 / 256) (n / 256) (by omega), same (n % 65536) n (by omega)]

theorem withCheck_eq (l : List Byte) : withCheck l = l ++ w16 (l.map (·.toNat)).sum := by
  rw [withCheck, byteSum, foldl_toNat_add, w16_mod, Nat.zero_add]

theorem countsBytes_eq (c : Counts) : countsBytes c =
    w32 (c.coins.get 0) ++ w32 (c.coins.get 1) ++ w32 (c.coins.get 2) ++ w32 (c.coins.get 3) ++ w32 (c.coins.get 4)
      ++ w32 (c.coins.get 5) ++ w32 (c.coins.get 6) ++ w32 (c.coins.get 7) ++ w32 c.stray := by
  simp [countsBytes, Eight.toList, Eight.get]

theorem countsBytes_length (c : Counts) : (countsBytes c).length = 36 := by simp [countsBytes_eq]

theorem pageABody_eq (v : Vault) : pageABody v = countsBytes v.life ++ w32 v.unconfirmed
    ++ money8 v.life.value ++ w16 v.epoch ++ [if v.sat = true then 1 else 0] ++ List.replicate 15 0 := by
  have flag : b8 (flagBit v.sat 1) = if v.sat = true then 1 else 0 := by cases v.sat <;> rfl
  rw [pageABody, fit_of_le (by simp [countsBytes_length]), flag]
  simp [countsBytes_length]

theorem pageBBody_eq (x : PageB) : pageBBody x =
    countsBytes x.base ++ money8 x.base.value ++ w16 x.epoch ++ w16 x.seq ++ List.replicate 18 0 := by
  rw [pageBBody, fit_of_le (by simp [countsBytes_length])]
  simp [countsBytes_length]

theorem pageCBody_eq (x : Collection) : pageCBody x = w16 x.seq ++ [b8 x.kind.code] ++ w16 x.epoch ++ w16 x.time.day
    ++ w24 x.time.sec
    ++ [b8 ((if x.time.isSet = true then 1 else 0) + (if x.exchanged = true then 2 else 0) + if x.sat = true then 4 else 0)]
    ++ countsBytes x.since ++ money8 x.since.value ++ w16 x.doorOpen ++ List.replicate 9 0 := by
  rw [pageCBody, fit_of_le (by simp [countsBytes_length])]
  simp [countsBytes_length, stampBytes, flagBit]

theorem pageDBody_eq (k : Bank) (v : Nat) :
    pageDBody k v = [if k = .a then 0 else 1] ++ w16 v ++ List.replicate 59 0 := by
  have code : b8 k.code = if k = .a then 0 else 1 := by cases k <;> rfl
  rw [pageDBody, fit_of_le (by simp), code]
  simp

/-- Settles O58. -/
theorem ownTransactions : Obligations.OwnTransactions := by
  unfold Obligations.OwnTransactions
  refine ⟨fun s i rest h hq => ?_, fun s => ?_⟩
  · intro left running done may
    have begun : beginTransaction s = running := beginTransaction_head hq
    have written : confirmWrite s = done := confirmWrite_head hq
    have starts : mayStart s = true ↔ may := mayStart_iff hq
    refine ⟨fun hm => ⟨?_, ?_⟩, fun hm k => ?_, fun a d hw => ?_, fun hw => ⟨written, fun hh => ⟨?_, ?_⟩⟩,
      fun hp hh => ⟨fun ho => ?_, fun ho => ?_⟩, ?_, fun a f p hr hi => ?_⟩
    · rw [exec_ownTransactionStart h, ownStart_acked (starts.mpr hm), begun]
    · rw [exec_ownTransactionStart h, ownStart_polls (starts.mpr hm)]
    · rw [exec_ownTransactionStart h, ownStart_rests (mt starts.mp hm)]
    · exact exec_ownWriteStop h hw
    · rw [exec_ownWriteConfirmed h hw, resume_unheld (by rw [confirmWrite_link, hh]), written]
    · rw [exec_memoryPoll h, memoryPoll_awaiting hw, resume_unheld (by rw [confirmWrite_link, hh]), written]
    · rw [exec_memoryPoll h, memoryPoll_begins hp hh, if_pos ho, begun]
    · rw [exec_memoryPoll h, memoryPoll_begins hp hh, if_neg ho]
    · rw [exec_memoryPoll h, memoryPoll_refused]
    · subst hi
      refine ⟨readDone_head hq a, fun hh => ?_⟩
      rw [exec_ownReadComplete h hr, resume_unheld (by rw [readDone_link]; exact hh)]
  · intro checked coins
    have sum (l : List Byte) : withCheck l = checked l := withCheck_eq l
    have counts (c : Counts) : countsBytes c = coins c := countsBytes_eq c
    refine ⟨fun r => ?_, fun p bytes => ⟨rfl, rfl, rfl, rfl, rfl⟩, ?_, fun c b => ?_, fun l => ?_, fun k v => ?_, fun n l => ?_,
      fun f p => rfl, fun x => ?_, fun x => ?_⟩
    · exact congrArg (OwnPhase.writing _) (sum _)
    · rw [← counts, ← pageABody_eq]; exact congrArg (OwnPhase.writing _) (sum _)
    · rw [← sum, ← sum]; rfl
    · exact congrArg (OwnPhase.writing _) (sum _)
    · rw [← pageDBody_eq]; exact congrArg (OwnPhase.writing _) (sum _)
    · exact congrArg (OwnPhase.writing _) (sum _)
    · rw [pageBBody_eq, counts]
    · rw [pageCBody_eq, counts]

/-! ### Attempts that fail -/

theorem releaseHost_unheld {s : State} (h : s.link.held = none) : releaseHost s = s := if_neg (by simp [h])

theorem faulted_unheld {s : State} (h : s.link.held = none) : faulted s = { s with link := { s.link with
    memFaults := bump 255 s.link.memFaults, lastWriter := .none } } := releaseHost_unheld (by exact h)

theorem exec_ownAttemptFailure_unheld {s t : State} {n : NakAt} {k : Bool} (h : s.start.rstHeld = false)
    (he : ownFailure n k s = resume k (failAttempt t)) (ht : t.link.held = none) :
    exec (.ownAttemptFailure ⟨n, k⟩) s = .next (refreshPins (settle (failAttempt t))) := by
  rw [exec_ownAttemptFailure h, he, resume_unheld (by rw [failAttempt_link, ht])]

/-! ### What an item's end tells its producer -/

theorem recordLeft_final {r : CallRecord} {s : State} (h : r.kind = .closed) :
    recordLeft r s = { s with call := { s.call with lastFinal := r.seq } } := by
  simp only [recordLeft, h]
  rfl

theorem recordLeft_rewrite {r : CallRecord} {s : State} (h : r.kind = .rewrite) :
    recordLeft r s = rewriteLeft { s with call := { s.call with lastFinal := r.seq } } := by
  simp only [recordLeft, h]
  rfl

theorem recordLeft_provisional {r : CallRecord} {s : State} (h : r.kind = .openRec ∨ r.kind = .checkpoint) :
    recordLeft r s = s := by
  rcases h with h | h <;> simp only [recordLeft, h]

theorem itemDropped_record (r : CallRecord) (s : State) : itemDropped (.record r) s = recordLeft r (raiseAccountFault
    { s with writer := { s.writer with dropped := bump 255 s.writer.dropped } }) := rfl

/-- Settles O59. -/
theorem attemptsAndDrops : Obligations.AttemptsAndDrops := by
  unfold Obligations.AttemptsAndDrops
  refine ⟨fun s i rest hq => ?_, fun s => ?_⟩
  · intro failed
    have fails (t : State) (hw : t.writer = s.writer) : failAttempt t = failed t := by
      rw [failAttempt_head (by rw [hw, hq]), hw]
    refine ⟨fails s rfl, fun h hh => ⟨fun d hl => ?_, fun a d hw k => ⟨?_, fun n hn => ?_⟩, fun a hr x k => ?_⟩⟩
    · intro fault
      have met : faulted (s.reach d) = { s with
          now := max s.now d
          link := { s.link with memFaults := bump 255 s.link.memFaults, lastWriter := .none } } := faulted_unheld hh
      refine ⟨fun hp => ⟨?_, fun x k => ?_⟩, fun hp he => ?_, fun a old hp he => ?_⟩
      · rw [exec_memoryFault h ((faultTime_polling hp).trans hl), takeMemoryFault_polling (by exact hp), met, fails _ (by rfl)]
      · rw [exec_ownAttemptFailure_unheld (t := s.reach d) h (ownFailure_polling hp hl x k) hh, fails _ (by rfl)]
        rfl
      · rw [exec_memoryFault h ((faultTime_awaiting hp).trans hl), takeMemoryFault_awaiting (by exact hp), met,
          unstore_none (by exact he), fails _ (by rfl)]
      · rw [exec_memoryFault h ((faultTime_awaiting hp).trans hl), takeMemoryFault_awaiting (by exact hp), met,
          unstore_some (by exact he), fails _ (by rfl)]
        rfl
    · rw [exec_ownAttemptFailure_unheld h (ownFailure_writing hw .inAddress k) hh, fails _ (by rfl)]
      rfl
    · rw [exec_ownAttemptFailure_unheld h (ownFailure_writing hw (.atData n) k) hh, pointerAtNak_data hn, fails _ (by rfl)]
      rfl
    · rw [exec_ownAttemptFailure_unheld (t := loseAddress s) h (ownFailure_reading hr x k) hh, fails _ (by rfl)]
      rfl
  · intro dropped raised
    have record (r : CallRecord) : itemDropped (.record r) s = recordLeft r (raised dropped) := itemDropped_record r s
    refine ⟨fun r hr => ⟨recordLeft_final hr, ?_⟩, fun r hr => ⟨recordLeft_rewrite hr, ?_⟩,
      fun r hr => ⟨recordLeft_provisional hr, ?_⟩, ⟨rfl, rfl⟩, fun c b => ⟨rfl, rfl⟩, fun k v => ⟨rfl, rfl⟩,
      fun n b => ⟨rfl, rfl⟩, fun b => ⟨rfl, rfl⟩, fun f p => rfl⟩
    · rw [record, recordLeft_final hr]
    · rw [record, recordLeft_rewrite hr]
    · rw [record, recordLeft_provisional hr]

end Sys2Proof.Machine
end

section
/-!
PROOFS. How records, collections, responses and bank switches join the own-write queue (O60).
-/

namespace Sys2Proof.Machine

/-! ### Room for an item -/

theorem hasRoom_call {s : State} : hasRoom .call s = true ↔ itemsOf .call s.writer.queue < 2 := hasRoom_iff

theorem hasRoom_vault {s : State} : hasRoom .vault s = true ↔ itemsOf .vault s.writer.queue < 2 := hasRoom_iff

theorem hasRoom_request {s : State} : hasRoom .request s = true ↔ itemsOf .request s.writer.queue < 1 := hasRoom_iff

theorem hasRoom_rating {s : State} : hasRoom .rating s = true ↔ itemsOf .rating s.writer.queue < 1 := hasRoom_iff

/-! ### A record handed over -/

theorem handRecord_checkpoint {r : CallRecord} {s : State} (h : s.writer.waiting.any (isProvisional r.seq) = true)
    (hk : r.kind = .checkpoint) : handRecord r s =
      s.onWriter fun w => w.withWaiting (.record r :: w.waiting.filter fun x => !isProvisional r.seq x) := by
  rw [handRecord, if_pos h]
  simp only [hk, if_true]

theorem handRecord_replaces {r : CallRecord} {s : State} (h : s.writer.waiting.any (isProvisional r.seq) = true)
    (hk : r.kind ≠ .checkpoint) :
    handRecord r s = s.onWriter fun w => w.withWaiting (replaceByClosed r w.waiting) := by
  rw [handRecord, if_pos h]
  simp only [if_neg hk]

/-- The first record of the same call is the one that gives way. -/
theorem replaceByClosed_append {r : CallRecord} {l : List Item} : ∀ {pre : List Item},
    (∀ y ∈ pre, isProvisional r.seq y = false) → replaceByClosed r (pre ++ l) = pre ++ replaceByClosed r l
  | [], _ => rfl
  | y :: pre, h => by
    have first : isProvisional r.seq y = false := h y (List.mem_cons_self ..)
    rw [List.cons_append, replaceByClosed, if_neg (by simp [first]),
      replaceByClosed_append fun z hz => h z (List.mem_cons_of_mem y hz), List.cons_append]

theorem replaceByClosed_in_place {r : CallRecord} {x : Item} {post : List Item} (hx : isProvisional r.seq x = true)
    (h : isCheckpoint x = false ∨ post.any (isEarlier r.seq) = false) :
    replaceByClosed r (x :: post) = .record r :: post := by
  rw [replaceByClosed, if_pos hx, if_neg]
  rw [Bool.and_eq_true]
  rintro ⟨hc, he⟩
  rcases h with h | h
  · simp [hc] at h
  · simp [he] at h

theorem placeBehindLast_none {p : Item → Bool} {i : Item} {l : List Item} (h : ∀ y ∈ l, p y = false) :
    placeBehindLast p i l = i :: l := by
  cases l with
  | nil => rfl
  | cons y rest =>
    have none : (rest.any p || p y) = false := by
      rw [h y (List.mem_cons_self ..), Bool.or_false, List.any_eq_false]
      exact fun z hz => by simp [h z (List.mem_cons_of_mem y hz)]
    rw [placeBehindLast, if_neg (by simp [none])]

theorem placeBehindLast_append {p : Item → Bool} {i z : Item} {post : List Item} (hz : p z = true)
    (h : ∀ y ∈ post, p y = false) : ∀ mid : List Item, placeBehindLast p i (mid ++ z :: post) = mid ++ z :: i :: post
  | [] => by rw [List.nil_append, placeBehindLast, if_pos (by simp [hz]), placeBehindLast_none h]; rfl
  | y :: mid => by
    rw [List.cons_append, placeBehindLast, if_pos (by simp [hz]), placeBehindLast_append hz h mid]
    rfl

theorem replaceByClosed_behind {r : CallRecord} {x z : Item} {mid post : List Item} (hx : isProvisional r.seq x = true)
    (hc : isCheckpoint x = true) (hz : isEarlier r.seq z = true) (h : ∀ y ∈ post, isEarlier r.seq y = false) :
    replaceByClosed r (x :: (mid ++ z :: post)) = mid ++ z :: .record r :: post := by
  rw [replaceByClosed, if_pos hx, if_pos (by simp [hc, hz]), placeBehindLast_append hz h]

theorem handRecord_held {r : CallRecord} {s : State} (h : s.writer.waiting.any (isProvisional r.seq) = false)
    (hh : ∃ x ∈ s.call.heldRecords, x.seq = r.seq) :
    handRecord r s = s.onCall fun c => { c with heldRecords := replaceHeld r c.heldRecords } := by
  rw [handRecord, if_neg (by simp [h]), if_pos (by simpa using hh)]

theorem handRecord_joins {r : CallRecord} {s : State} (h : s.writer.waiting.any (isProvisional r.seq) = false)
    (hh : s.call.heldRecords = []) (hr : itemsOf .call s.writer.queue < 2) : handRecord r s = joinRecord r s := by
  rw [handRecord, if_neg (by simp [h]), if_neg (by simp [hh]), if_pos (by simp [hh, hasRoom_call.mpr hr])]

theorem handRecord_waits {r : CallRecord} {s : State} (h : s.writer.waiting.any (isProvisional r.seq) = false)
    (hn : ∀ x ∈ s.call.heldRecords, x.seq ≠ r.seq) (hh : s.call.heldRecords ≠ [] ∨ 2 ≤ itemsOf .call s.writer.queue) :
    handRecord r s = s.onCall fun c => { c with heldRecords := c.heldRecords ++ [r] } := by
  rw [handRecord, if_neg (by simp [h]), if_neg (by simpa using hn), if_neg]
  rw [Bool.and_eq_true, hasRoom_call, beq_iff_eq]
  rintro ⟨room, none⟩
  rcases hh with hh | hh
  · exact hh none
  · omega

theorem joinRecord_checkpoint {r : CallRecord} {s : State} (h : r.kind = .checkpoint) :
    joinRecord r s = s.onWriter fun w => w.withWaiting (.record r :: w.waiting) := if_pos h

theorem joinRecord_other {r : CallRecord} {s : State} (h : r.kind ≠ .checkpoint) :
    joinRecord r s = pushItem (.record r) s := if_neg h

/-! ### A collection handed over -/

theorem accountFault_eq (s : State) : s.blocked .accountFault = s.call.reasons.accountFault := rfl

theorem handCollection_unkept {s : State} (h : s.call.reasons.accountFault = true) (r : Collection) (b : PageB) :
    handCollection r b s = s := if_pos h

theorem handCollection_joins {s : State} (h : s.call.reasons.accountFault = false) (hr : itemsOf .vault s.writer.queue < 2)
    (hh : s.vault.held = []) (r : Collection) (b : PageB) :
    handCollection r b s = pushItem (.collection (pageCBody r) (pageBBody b)) s := by
  rw [handCollection, accountFault_eq, if_neg (by simp [h]), if_pos (by simp [hh, hasRoom_vault.mpr hr])]

theorem handCollection_held {s : State} (h : s.call.reasons.accountFault = false)
    (hr : 2 ≤ itemsOf .vault s.writer.queue ∨ s.vault.held ≠ []) (r : Collection) (b : PageB) :
    handCollection r b s = s.onVault fun v => { v with held := holdCollection r b v.held } := by
  rw [handCollection, accountFault_eq, if_neg (by simp [h]), if_neg]
  rw [Bool.and_eq_true, hasRoom_vault, beq_iff_eq]
  rintro ⟨room, none⟩
  rcases hr with hr | hr
  · omega
  · exact hr none

/-- The updates that are held stand before the collection. -/
theorem holdCollection_append (r : Collection) (b : PageB) (l : List VaultHeld) : ∀ pre : List VaultHeld,
    (∀ x ∈ pre, x = .update) → holdCollection r b (pre ++ l) = pre ++ holdCollection r b l
  | [], _ => rfl
  | x :: pre, h => by
    obtain rfl : x = .update := h x (List.mem_cons_self ..)
    rw [List.cons_append, holdCollection, holdCollection_append r b l pre fun y hy => h y (List.mem_cons_of_mem _ hy),
      List.cons_append]

theorem counts_add_eq (x y : Counts) : x.add y = ⟨x.coins.zip (fun m n => min 4294967295 (m + n)) y.coins,
    min 4294967295 (x.stray + y.stray), min 99999999 (x.value + y.value)⟩ := by
  have sum (top : Nat) : satAdd top = fun m n => min top (m + n) := funext fun m => funext fun n => satAdd_eq_min top m n
  rw [Counts.add, sum, sum]

theorem mergeCollections_eq (x r : Collection) : mergeCollections x r = { r with
    since := ⟨x.since.coins.zip (fun m n => min 4294967295 (m + n)) r.since.coins,
      min 4294967295 (x.since.stray + r.since.stray), min 99999999 (x.since.value + r.since.value)⟩
    doorOpen := min 65535 (x.doorOpen + r.doorOpen), exchanged := x.exchanged || r.exchanged } := by
  rw [mergeCollections, counts_add_eq, satAdd_eq_min]

/-! ### Held records and vault items join -/

theorem itemsOf_all {p : Producer} {l : List Item} (h : ∀ i ∈ l, i.producer = p) : itemsOf p l = l.length := by
  rw [itemsOf, List.filter_eq_self.mpr fun i hi => by simp [h i hi]]

/-- The first `k` of the held records behind the queue. -/
def recordsJoined (k : Nat) (s : State) : State := { s with
  writer := { s.writer with queue := s.writer.queue ++ (s.call.heldRecords.take k).map .record }
  call := { s.call with heldRecords := s.call.heldRecords.drop k } }

theorem recordsJoined_zero (s : State) : recordsJoined 0 s = s := by simp [recordsJoined]

theorem recordsJoined_add (j k : Nat) (s : State) : recordsJoined j (recordsJoined k s) = recordsJoined (k + j) s := by
  simp [recordsJoined, List.take_add, List.drop_drop]

theorem recordsJoined_items {k : Nat} {s : State} (hk : k ≤ s.call.heldRecords.length) :
    itemsOf .call (recordsJoined k s).writer.queue = itemsOf .call s.writer.queue + k := by
  have all : ∀ i ∈ (s.call.heldRecords.take k).map Item.record, i.producer = .call := by
    intro i hi
    obtain ⟨r, -, rfl⟩ := List.mem_map.mp hi
    rfl
  rw [recordsJoined, itemsOf_append, itemsOf_all all]
  simp [hk]

theorem releaseHeldRecord_full {s : State} (h : 2 ≤ itemsOf .call s.writer.queue) : releaseHeldRecord s = s := by
  unfold releaseHeldRecord
  split
  · rfl
  · exact if_neg (by rw [hasRoom_call]; omega)

theorem releaseHeldRecord_head {s : State} {r : CallRecord} {rest : List CallRecord} (h : s.call.heldRecords = r :: rest)
    (hr : itemsOf .call s.writer.queue < 2) :
    releaseHeldRecord s = joinRecord r (s.onCall fun c => { c with heldRecords := rest }) := by
  unfold releaseHeldRecord
  rw [h]
  exact if_pos (hasRoom_call.mpr hr)

/-- One held record joins, where there is one and room for it. -/
theorem releaseHeldRecord_eq {s : State} (h : ∀ r rest, s.call.heldRecords = r :: rest →
      itemsOf .call s.writer.queue < 2 → r.kind ≠ .checkpoint) :
    releaseHeldRecord s = recordsJoined (min s.call.heldRecords.length (min 1 (2 - itemsOf .call s.writer.queue))) s := by
  by_cases full : 2 ≤ itemsOf .call s.writer.queue
  · rw [releaseHeldRecord_full full, Nat.sub_eq_zero_of_le full, Nat.min_zero, Nat.min_zero, recordsJoined_zero]
  · cases hl : s.call.heldRecords with
    | nil =>
      rw [List.length_nil, Nat.zero_min, recordsJoined_zero]
      simp only [releaseHeldRecord, hl]
    | cons r rest =>
      have one : min (r :: rest).length (min 1 (2 - itemsOf .call s.writer.queue)) = 1 := by
        rw [List.length_cons]
        omega
      rw [releaseHeldRecord_head hl (Nat.not_le.mp full), joinRecord_other (h r rest hl (Nat.not_le.mp full)), one,
        recordsJoined, hl]
      rfl

/-- Both releases together. -/
theorem releaseHeldRecord_twice {s : State} {n : Nat}
    (hn : n = min s.call.heldRecords.length (2 - itemsOf .call s.writer.queue))
    (h : ∀ r ∈ s.call.heldRecords.take n, r.kind ≠ .checkpoint) :
    releaseHeldRecord (releaseHeldRecord s) = recordsJoined n s := by
  have first : releaseHeldRecord s =
      recordsJoined (min s.call.heldRecords.length (min 1 (2 - itemsOf .call s.writer.queue))) s := by
    refine releaseHeldRecord_eq fun r rest hl hr => h r ?_
    rw [hl] at hn ⊢
    obtain ⟨m, rfl⟩ : ∃ m, n = m + 1 := ⟨n - 1, by rw [List.length_cons] at hn; omega⟩
    exact List.mem_cons_self ..
  generalize hk : min s.call.heldRecords.length (min 1 (2 - itemsOf .call s.writer.queue)) = k at first
  have items := recordsJoined_items (k := k) (s := s) (by omega)
  have held : (recordsJoined k s).call.heldRecords = s.call.heldRecords.drop k := rfl
  rw [first, releaseHeldRecord_eq, recordsJoined_add, items, held, List.length_drop]
  · congr 1
    omega
  · intro r rest hl hr
    rw [held] at hl
    rw [items] at hr
    refine h r (List.mem_iff_getElem?.mpr ⟨k, ?_⟩)
    have here : s.call.heldRecords[k]? = some r := by
      have := congrArg (·[0]?) hl
      simpa using this
    obtain ⟨lt, -⟩ := List.getElem?_eq_some_iff.mp here
    rw [List.getElem?_take_of_lt (by omega), here]

/-- The item that a held vault item joins as. -/
def vaultItem : VaultHeld → Item
  | .update => .vaultUpdate
  | .collection r b => .collection (pageCBody r) (pageBBody b)

/-- The first `k` of the held vault items behind the queue. -/
def vaultJoined (k : Nat) (s : State) : State := { s with
  writer := { s.writer with queue := s.writer.queue ++ (s.vault.held.take k).map vaultItem }
  vault := { s.vault with held := s.vault.held.drop k } }

theorem vaultJoined_zero (s : State) : vaultJoined 0 s = s := by simp [vaultJoined]

theorem vaultJoined_add (j k : Nat) (s : State) : vaultJoined j (vaultJoined k s) = vaultJoined (k + j) s := by
  simp [vaultJoined, List.take_add, List.drop_drop]

theorem vaultJoined_items {k : Nat} {s : State} (hk : k ≤ s.vault.held.length) :
    itemsOf .vault (vaultJoined k s).writer.queue = itemsOf .vault s.writer.queue + k := by
  have all : ∀ i ∈ (s.vault.held.take k).map vaultItem, i.producer = .vault := by
    intro i hi
    obtain ⟨x, -, rfl⟩ := List.mem_map.mp hi
    cases x <;> rfl
  rw [vaultJoined, itemsOf_append, itemsOf_all all]
  simp [hk]

theorem releaseHeldVault_faulted {s : State} (h : s.call.reasons.accountFault = true) : releaseHeldVault s = s := if_pos h

theorem releaseHeldVault_head {s : State} {x : VaultHeld} {rest : List VaultHeld} (h : s.call.reasons.accountFault = false)
    (hl : s.vault.held = x :: rest) : releaseHeldVault s = if hasRoom .vault s = true then
      pushItem (vaultItem x) (s.onVault fun v => { v with held := rest }) else s := by
  rw [releaseHeldVault, accountFault_eq, if_neg (by simp [h])]
  simp only [hl]
  cases x <;> rfl

/-- One held vault item joins, where there is one and room for it. -/
theorem releaseHeldVault_eq {s : State} (h : s.call.reasons.accountFault = false) : releaseHeldVault s =
    vaultJoined (min s.vault.held.length (min 1 (2 - itemsOf .vault s.writer.queue))) s := by
  cases hl : s.vault.held with
  | nil =>
    rw [List.length_nil, Nat.zero_min, vaultJoined_zero, releaseHeldVault, accountFault_eq, if_neg (by simp [h])]
    simp only [hl]
  | cons x rest =>
    rw [releaseHeldVault_head h hl]
    by_cases room : itemsOf .vault s.writer.queue < 2
    · have one : min (x :: rest).length (min 1 (2 - itemsOf .vault s.writer.queue)) = 1 := by
        rw [List.length_cons]
        omega
      rw [if_pos (hasRoom_vault.mpr room), one, vaultJoined, hl]
      rfl
    · have none : min (x :: rest).length (min 1 (2 - itemsOf .vault s.writer.queue)) = 0 := by omega
      rw [if_neg (mt hasRoom_vault.mp room), none, vaultJoined_zero]

theorem releaseHeldVault_twice {s : State} {n : Nat} (h : s.call.reasons.accountFault = false)
    (hn : n = min s.vault.held.length (2 - itemsOf .vault s.writer.queue)) :
    releaseHeldVault (releaseHeldVault s) = vaultJoined n s := by
  have first := releaseHeldVault_eq h
  generalize hk : min s.vault.held.length (min 1 (2 - itemsOf .vault s.writer.queue)) = k at first
  have items := vaultJoined_items (k := k) (s := s) (by omega)
  have held : (vaultJoined k s).vault.held = s.vault.held.drop k := rfl
  rw [first, releaseHeldVault_eq (s := vaultJoined k s) h, vaultJoined_add, items, held, List.length_drop]
  congr 1
  omega

/-! ### Responses, reads and the bank switch -/

theorem handResponse_joins {s : State} (h : itemsOf .request s.writer.queue = 0) (body : List Byte) :
    handResponse body s = pushItem (.response body) s := if_pos (hasRoom_request.mpr (by omega))

theorem handResponse_held {s : State} (h : 1 ≤ itemsOf .request s.writer.queue) (body : List Byte) :
    handResponse body s = s.onReq fun r => { r with heldResponse := some body } :=
  if_neg (mt hasRoom_request.mp (by omega))

theorem releaseHeldRequest_full {s : State} (h : 1 ≤ itemsOf .request s.writer.queue) : releaseHeldRequest s = s :=
  if_neg (mt hasRoom_request.mp (by omega))

theorem releaseHeldRequest_response {s : State} {b : List Byte} (h : itemsOf .request s.writer.queue = 0)
    (hb : s.req.heldResponse = some b) :
    releaseHeldRequest s = pushItem (.response b) (s.onReq fun r => { r with heldResponse := none }) := by
  rw [releaseHeldRequest, if_pos (hasRoom_request.mpr (by omega))]
  simp only [hb]

theorem releaseHeldRequest_read {s : State} {p : Nat} (h : itemsOf .request s.writer.queue = 0)
    (hb : s.req.heldResponse = none) (hp : s.req.wantRead = some p) :
    releaseHeldRequest s = pushItem (.read .config p) (s.onReq fun r => { r with wantRead := none }) := by
  rw [releaseHeldRequest, if_pos (hasRoom_request.mpr (by omega))]
  simp only [hb, hp]

theorem releaseHeldRequest_none {s : State} (hb : s.req.heldResponse = none) (hp : s.req.wantRead = none) :
    releaseHeldRequest s = s := by
  unfold releaseHeldRequest
  simp only [hb, hp, ite_self]

theorem handBankSwitch_faulted {s : State} (h : s.call.reasons.accountFault = true) :
    handBankSwitch s = s.onTariff fun t => { t with unwritten := true } := if_pos h

theorem handBankSwitch_joins {s : State} (h : s.call.reasons.accountFault = false) (hr : itemsOf .rating s.writer.queue = 0) :
    handBankSwitch s = pushItem (.bankSwitch s.tariff.bank s.tariff.version) s := by
  rw [handBankSwitch, accountFault_eq, if_neg (by simp [h]), if_pos (hasRoom_rating.mpr (by omega))]

theorem handBankSwitch_held {s : State} (h : s.call.reasons.accountFault = false) (hr : 1 ≤ itemsOf .rating s.writer.queue) :
    handBankSwitch s = s.onTariff fun t => { t with heldSwitch := true } := by
  rw [handBankSwitch, accountFault_eq, if_neg (by simp [h]), if_neg (mt hasRoom_rating.mp (by omega))]

theorem releaseHeldRating_full {s : State} (h : 1 ≤ itemsOf .rating s.writer.queue) : releaseHeldRating s = s :=
  if_neg (mt hasRoom_rating.mp (by omega))

theorem releaseHeldRating_switch {s : State} (h : itemsOf .rating s.writer.queue = 0) (hs : s.tariff.heldSwitch = true) :
    releaseHeldRating s = handBankSwitch (s.onTariff fun t => { t with heldSwitch := false }) := by
  rw [releaseHeldRating, if_pos (hasRoom_rating.mpr (by omega)), if_pos hs]

theorem releaseHeldRating_read {s : State} {p : Nat} (h : itemsOf .rating s.writer.queue = 0)
    (hs : s.tariff.heldSwitch = false) (hp : s.tariff.wantRead = some p) :
    releaseHeldRating s = pushItem (.read .bank p) (s.onTariff fun t => { t with wantRead := none }) := by
  rw [releaseHeldRating, if_pos (hasRoom_rating.mpr (by omega)), if_neg (by simp [hs])]
  simp only [hp]

theorem releaseHeldRating_none {s : State} (hs : s.tariff.heldSwitch = false) (hp : s.tariff.wantRead = none) :
    releaseHeldRating s = s := by
  unfold releaseHeldRating
  simp only [hs, hp, Bool.false_eq_true, if_false, ite_self]

theorem releaseStartRead_none {s : State} (h : s.start.want = none) : releaseStartRead s = s := by
  simp only [releaseStartRead, h]

theorem releaseStartRead_some {s : State} {f : ReadFor} {p : Nat} (h : s.start.want = some (f, p)) : releaseStartRead s =
    if itemsOf f.producer s.writer.queue < f.producer.quota then
      pushItem (.read f p) (s.onStart fun x => { x with want := none }) else s := by
  simp only [releaseStartRead, h, hasRoom_iff]

theorem responseBody_eq (code tag result : Nat) {detail : List Byte} (h : detail.length ≤ 59) :
    responseBody code tag result detail =
      b8 code :: b8 tag :: b8 result :: (detail ++ List.replicate (59 - detail.length) (b8 0)) := by
  have len : ([b8 code, b8 tag, b8 result] ++ detail).length = detail.length + 3 := by simp
  rw [responseBody, fit_of_le (by omega), len, show 62 - (detail.length + 3) = 59 - detail.length by omega]
  rfl

/-- Settles O60. -/
theorem recordsJoinTheQueue : Obligations.RecordsJoinTheQueue := by
  unfold Obligations.RecordsJoinTheQueue
  refine ⟨fun r s => ?_, fun r b s => ?_, fun s n => ?_, fun s => ⟨fun body => ⟨?_, ?_⟩, handBankSwitch_faulted, fun h => ⟨?_, ?_⟩⟩,
    fun code tag result detail => responseBody_eq code tag result⟩
  · intro waiting withWaiting
    have replaced (pre post : List Item) (x : Item) (h : waiting = pre ++ x :: post)
        (hp : ∀ y ∈ pre, isProvisional r.seq y = false) (hx : isProvisional r.seq x = true) (hk : r.kind ≠ .checkpoint) :
        handRecord r s = withWaiting (pre ++ replaceByClosed r (x :: post)) := by
      have some : s.writer.waiting.any (isProvisional r.seq) = true := by
        rw [show s.writer.waiting = _ from h]; simp [hx]
      rw [handRecord_replaces some hk, ← replaceByClosed_append hp, ← h]
      rfl
    refine ⟨handRecord_checkpoint, fun pre post x h hp hx hk hc => ?_, fun pre mid post x z h hp hx hc hz he hk => ?_,
      fun h => ⟨fun x hx hs => ?_, fun hn => ⟨fun hh hr => ⟨fun hk => ?_, fun hk => ?_⟩, fun hh => ?_⟩⟩⟩
    · rw [replaced pre post x h hp hx hk, replaceByClosed_in_place hx hc]
    · rw [replaced pre _ x h hp hx hk, replaceByClosed_behind hx hc hz he]
    · exact handRecord_held h ⟨x, hx, hs⟩
    · rw [handRecord_joins h hh hr, joinRecord_checkpoint hk]; rfl
    · rw [handRecord_joins h hh hr, joinRecord_other hk]; rfl
    · exact handRecord_waits h hn hh
  · intro held counts
    refine ⟨fun h => handCollection_unkept h r b, fun h => ⟨fun hr hh => handCollection_joins h hr hh r b, fun hr =>
      ⟨fun hu => ?_, fun pre post x y hu hl => ?_⟩⟩⟩
    · have tail := holdCollection_append r b [] s.vault.held hu
      rw [List.append_nil] at tail
      rw [handCollection_held h hr, State.onVault, tail]
      rfl
    · rw [handCollection_held h hr, State.onVault, hl, holdCollection_append r b _ pre hu, holdCollection,
        mergeCollections_eq]
  · intro queued
    refine ⟨rfl, releaseHeldRecord_twice, fun r rest hl hk hr => ?_, releaseHeldVault_faulted, fun h hn => ?_,
      releaseHeldRequest_full, fun h => ⟨fun b => releaseHeldRequest_response h, fun p => releaseHeldRequest_read h,
        releaseHeldRequest_none⟩, releaseHeldRating_full,
      fun h => ⟨fun hs ha => ?_, fun hs ha => ?_, fun p => releaseHeldRating_read h, releaseHeldRating_none⟩,
      releaseStartRead_none, fun f p hw => ?_⟩
    · rw [releaseHeldRecord_head hl hr, joinRecord_checkpoint hk]; rfl
    · rw [releaseHeldVault_twice h hn]; rfl
    · rw [releaseHeldRating_switch h hs, handBankSwitch_joins (by exact ha) (by exact h)]; rfl
    · rw [releaseHeldRating_switch h hs, handBankSwitch_faulted (by exact ha)]; rfl
    · intro room
      have roomy : room ↔ itemsOf f.producer s.writer.queue < f.producer.quota := by cases f <;> exact Iff.rfl
      rw [releaseStartRead_some hw]
      exact ⟨fun k => if_pos (roomy.mp k), fun k => if_neg (mt roomy.mpr k)⟩
  · exact fun h => handResponse_joins h body
  · exact fun h => handResponse_held h body
  · exact handBankSwitch_joins h
  · exact handBankSwitch_held h

end Sys2Proof.Machine
end

section
/-!
PROOFS. The validation tables as lists of tests, and the settings that a configuration block holds.
-/

namespace Sys2Proof.Machine

/-! ### The first check that fails -/

theorem firstFail_append {pre : List Checked} (h : ∀ x ∈ pre, x.1 = true) (post : List Checked) :
    firstFail (pre ++ post) = firstFail post := by
  induction pre with
  | nil => rfl
  | cons x pre ih =>
    obtain ⟨hx, hpre⟩ := List.forall_mem_cons.mp h
    exact (if_pos hx).trans (ih hpre)

theorem firstFail_all {l : List Checked} (h : ∀ x ∈ l, x.1 = true) : firstFail l = none := by
  simpa [firstFail] using firstFail_append h []

/-! ### A table of checks and the tests that it makes -/

/-- A check makes a test and reports its finding. -/
def Makes (c : Checked) (r : Prop × Finding) : Prop := (c.1 = true ↔ r.1) ∧ c.2 = r.2

theorem makes_mk {b : Bool} {p : Prop} (f : Finding) (h : b = true ↔ p) : Makes (b, f) (p, f) := ⟨h, rfl⟩

theorem forall₂_makes {l : List Checked} {r : List (Prop × Finding)} (h : List.Forall₂ Makes l r) :
    l.length = r.length ∧ ∀ x ∈ l.zip r, (x.1.1 = true ↔ x.2.1) ∧ x.1.2 = x.2.2 :=
  ⟨h.length_eq, fun ⟨_, _⟩ hx => List.forall₂_zip h hx⟩

theorem forall₂_map_makes {l : List Nat} {f : Nat → Checked} {g : Nat → Prop × Finding} (h : ∀ i, Makes (f i) (g i)) :
    List.Forall₂ Makes (l.map f) (l.map g) := by
  rw [List.forall₂_map_left_iff, List.forall₂_map_right_iff, List.forall₂_same]
  exact fun i _ => h i

theorem forall₂_flatMap_makes {f : Nat → List Checked} {g : Nat → List (Prop × Finding)}
    (h : ∀ i, List.Forall₂ Makes (f i) (g i)) (l : List Nat) : List.Forall₂ Makes (l.flatMap f) (l.flatMap g) := by
  induction l with
  | nil => exact .nil
  | cons i l ih => exact List.rel_append (h i) ih

/-! ### The kinds of tests -/

theorem byteSum_eq (l : List Byte) : byteSum l = (l.map (·.toNat)).sum % 65536 := by
  rw [byteSum, foldl_toNat_add, Nat.zero_add]

theorem decimalOk_iff (l : List Byte) (o n : Nat) : decimalOk l o n = true ↔ ∀ j < n, codeAt l o j ≤ 9 := by
  simp [decimalOk, codes]

theorem digitString_all (l : List Byte) (o top : Nat) :
    (digitString l o).all (· ≤ top) = true ↔ ∀ j < byteAt l o, codeAt l (o + 1) j ≤ top := by
  simp [digitString, codes]

theorem digitsOk_iff (l : List Byte) (o lo hi top : Nat) : digitsOk l o lo hi top = true ↔
    (lo ≤ byteAt l o ∧ byteAt l o ≤ hi) ∧ ∀ j < byteAt l o, codeAt l (o + 1) j ≤ top := by
  rw [digitsOk, Bool.and_eq_true, within_iff, digitString_all]

theorem thresholdsOk_iff (a b c : Nat) : thresholdsOk ⟨a, b, c⟩ = true ↔ 1 ≤ a ∧ a < b ∧ b < c ∧ c ≤ 4095 := by
  simp only [thresholdsOk, Bool.and_eq_true, within_iff, decide_eq_true_eq]
  omega

theorem routeDigits_all (t : List Byte) (i : Nat) : (routeDigits t i).all (· ≤ 11) = true ↔
    ∀ j < byteAt t (routeOffset t i), codeAt t (routeOffset t i + 1) j ≤ 11 := by
  simp [routeDigits, codes]

theorem codes_ne_iff (l : List Byte) (a b n m : Nat) :
    codes l a n ≠ codes l b m ↔ (n = m → ∃ k < m, codeAt l a k ≠ codeAt l b k) := by
  by_cases h : n = m
  · subst h
    simp [codes]
  · refine iff_of_true (fun e => h ?_) fun e => absurd e h
    simpa [codes] using congrArg List.length e

theorem noEarlierTwin_iff (t : List Byte) (i : Nat) : noEarlierTwin t i = true ↔
    ∀ j < i, byteAt t (routeOffset t j) = byteAt t (routeOffset t i) →
      ∃ n < byteAt t (routeOffset t i), codeAt t (routeOffset t j + 1) n ≠ codeAt t (routeOffset t i + 1) n := by
  simp only [noEarlierTwin, List.all_eq_true, List.mem_range, bne_iff_ne, routeDigits, codes_ne_iff]

theorem byteAt_lt (l : List Byte) (i : Nat) : byteAt l i < 256 := BitVec.isLt _

/-- Item 9: the check word of a bank covers itself out. -/
theorem bankSum_iff (t : List Byte) :
    ((byteSum (t.take (usedLength t)) + (131072 - byteAt t 0x1E - byteAt t 0x1F)) % 65536 == be2 t 0x1E) = true ↔
      ((((t.take (usedLength t)).map (·.toNat)).sum : Int) - byteAt t 0x1E - byteAt t 0x1F) % 65536 = be2 t 0x1E := by
  have h1 := byteAt_lt t 0x1E
  have h2 := byteAt_lt t 0x1F
  have cast (l : List Byte) : (l.map fun b => (b.toNat : Int)).sum = (l.map (·.toNat)).sum := by
    rw [Nat.cast_list_sum, List.map_map]
    rfl
  rw [beq_iff_eq, byteSum_eq, cast]
  omega

/-! ### The three tables -/

theorem headerChecks_tests (t : List Byte) (e : Option Nat) : List.Forall₂ Makes (headerChecks t e)
    [(be2 t 0 = 0x7B1A, ⟨2, 0, 2⟩), ((∀ v, e = some v → be2 t 2 = v), ⟨2, 0, 3⟩),
      (1 ≤ byteAt t 4 ∧ byteAt t 4 ≤ 32, ⟨2, 0, 4⟩), (1 ≤ byteAt t 5 ∧ byteAt t 5 ≤ 96, ⟨2, 0, 4⟩),
      (be2 t 6 ≤ 1439 ∧ be2 t 8 ≤ 1439, ⟨2, 0, 5⟩), (byteAt t 10 ≤ 6, ⟨2, 0, 6⟩),
      (1 ≤ byteAt t 11 ∧ byteAt t 11 ≤ 3, ⟨2, 0, 7⟩), (byteAt t 12 ≤ 30, ⟨2, 0, 8⟩)] := by
  have version : (match e with | none => true | some v => be2 t 2 == v) = true ↔ ∀ v, e = some v → be2 t 2 = v := by
    cases e <;> simp
  have range (lo o hi : Nat) : within lo (byteAt t o) hi = true ↔ lo ≤ byteAt t o ∧ byteAt t o ≤ hi := within_iff ..
  exact .cons (makes_mk _ beq_iff_eq) (.cons (makes_mk _ version) (.cons (makes_mk _ (range ..))
    (.cons (makes_mk _ (range ..)) (.cons (makes_mk _ (by simp)) (.cons (makes_mk _ decide_eq_true_iff)
      (.cons (makes_mk _ (range ..)) (.cons (makes_mk _ decide_eq_true_iff) .nil)))))))

theorem bandChecks_tests (t : List Byte) (i : Nat) : List.Forall₂ Makes (bandChecks t i)
    (let o := 32 + 16 * i
     let digits (o n top : Nat) : Prop := ∀ j < n, codeAt t o j ≤ top
     [(byteAt t o / 16 ≤ 1, ⟨4, i, 10⟩),
      (digits (o + 1) 6 9 ∧ digits (o + 6) 6 9 ∧ digits (o + 9) 6 9 ∧ digits (o + 14) 4 9 ∧
        codeAt t (o + 6) 0 = 0 ∧ codeAt t (o + 9) 0 = 0, ⟨4, i, 11⟩),
      (1 ≤ be2 t (o + 12) ∧ be2 t (o + 12) ≤ 600, ⟨4, i, 12⟩), (be2 t (o + 4) ≤ 600, ⟨4, i, 13⟩)]) := by
  refine .cons (makes_mk _ decide_eq_true_iff) (.cons (makes_mk _ ?_) (.cons (makes_mk _ (within_iff ..))
    (.cons (makes_mk _ decide_eq_true_iff) .nil)))
  simp only [Bool.and_eq_true, decimalOk_iff, beq_iff_eq, and_assoc]

theorem routeChecks_tests (t : List Byte) (i : Nat) : List.Forall₂ Makes (routeChecks t i)
    (let o := 32 + 16 * byteAt t 4 + 12 * i
     [(1 ≤ byteAt t o ∧ byteAt t o ≤ 8, ⟨5, i, 14⟩), (∀ j < byteAt t o, codeAt t (o + 1) j ≤ 11, ⟨5, i, 15⟩),
      (byteAt t (o + 5) < byteAt t 4, ⟨5, i, 16⟩),
      (1 ≤ byteAt t (o + 6) ∧ byteAt t (o + 6) ≤ byteAt t (o + 7) ∧ byteAt t (o + 7) ≤ 20 ∧
        byteAt t o ≤ byteAt t (o + 7), ⟨5, i, 14⟩)]) := by
  refine .cons (makes_mk _ (within_iff ..)) (.cons (makes_mk _ (routeDigits_all t i))
    (.cons (makes_mk _ decide_eq_true_iff) (.cons (makes_mk _ ?_) .nil)))
  have offset : routeOffset t i = 32 + 16 * byteAt t 4 + 12 * i := rfl
  simp only [Bool.and_eq_true, within_iff, decide_eq_true_eq]
  rw [offset]
  omega

theorem configChecks_tests (c : List Byte) : List.Forall₂ Makes (configChecks c)
    (let in_ (lo o hi : Nat) : Prop := lo ≤ byteAt c o ∧ byteAt c o ≤ hi
     let string (o lo hi top : Nat) : Prop := in_ lo o hi ∧ ∀ j < byteAt c o, codeAt c (o + 1) j ≤ top
     [((c.take 190 |>.map (·.toNat)).sum % 65536 = be2 c 190, ⟨2, 0, 2⟩), (string 0 1 8 9, ⟨3, 0, 3⟩),
         (string 5 0 16 11, ⟨4, 0, 3⟩), (byteAt c 0x0E ≤ 4, ⟨5, 0, 3⟩)]
       ++ (List.range (min 4 (byteAt c 0x0E))).map (fun i => (string (0x0F + 5 * i) 1 8 9, ⟨5, i, 3⟩))
       ++ (List.range 8).map (fun i => ((∀ j < 4, codeAt c (0x23 + 2 * i) j ≤ 9), ⟨6, i + 1, 4⟩))
       ++ [(byteAt c 0x33 ≤ 1 ∧ byteAt c 0x34 ≤ 1 ∧ in_ 40 0x35 200 ∧ in_ 40 0x36 200 ∧ in_ 1 0x37 15 ∧ byteAt c 0x38 ≤ 60 ∧
            30 ≤ be2 c 0x39 ∧ be2 c 0x39 ≤ 300, ⟨7, 0, 5⟩),
           (in_ 40 0x3B 200 ∧ in_ 10 0x3C 100 ∧ byteAt c 0x3D ≤ 9, ⟨8, 0, 5⟩),
           (100 ≤ be2 c 0x3E ∧ be2 c 0x3E ≤ 4000 ∧ byteAt c 0x40 ≤ 99, ⟨9, 0, 5⟩), (in_ 1 0x41 64, ⟨10, 0, 5⟩),
           (in_ 20 0x42 200 ∧ byteAt c 0x43 ≤ 3 ∧ in_ 4 0x44 10 ∧ in_ 4 0x45 12 ∧ byteAt c 0x46 ≤ 8 ∧ in_ 1 0x47 8 ∧
            10 ≤ be2 c 0x48 ∧ be2 c 0x48 ≤ 600 ∧ in_ 5 0x4A 120, ⟨11, 0, 5⟩)]
       ++ (List.range 6).map (fun i => (1 ≤ be2 c (0x4B + 6 * i) ∧ be2 c (0x4B + 6 * i) < be2 c (0x4D + 6 * i) ∧
            be2 c (0x4D + 6 * i) < be2 c (0x4F + 6 * i) ∧ be2 c (0x4F + 6 * i) ≤ 4095, ⟨12, i + 1, 6⟩))
       ++ (List.range 6).map (fun i => (byteAt c (0x6F + 3 * i) ≤ 2 ∧ byteAt c (0x70 + 3 * i) ≤ 2 ∧ byteAt c (0x71 + 3 * i) ≤ 2,
            ⟨13, i + 1, 5⟩))
       ++ (List.range 16).map (fun i => (byteAt c (0x81 + i) ≤ 3, ⟨14, i + 1, 5⟩))) := by
  refine List.rel_append (List.rel_append (List.rel_append (List.rel_append (List.rel_append (List.rel_append ?head ?emergency)
    ?values) ?blocks) ?thresholds) ?arms) ?severities
  case head =>
    refine .cons (makes_mk _ ?_) (.cons (makes_mk _ (digitsOk_iff ..)) (.cons (makes_mk _ (digitsOk_iff ..))
      (.cons (makes_mk _ decide_eq_true_iff) .nil)))
    rw [byteSum_eq, beq_iff_eq]
  case emergency => exact forall₂_map_makes fun i => makes_mk _ (digitsOk_iff ..)
  case values => exact forall₂_map_makes fun i => makes_mk _ (decimalOk_iff ..)
  case blocks =>
    refine .cons (makes_mk _ ?_) (.cons (makes_mk _ ?_) (.cons (makes_mk _ ?_) (.cons (makes_mk _ (within_iff ..))
      (.cons (makes_mk _ ?_) .nil)))) <;> simp only [Bool.and_eq_true, within_iff, decide_eq_true_eq, and_assoc]
  case thresholds => exact forall₂_map_makes fun i => makes_mk _ (thresholdsOk_iff ..)
  case arms => exact forall₂_map_makes fun i => makes_mk _ (by simp [and_assoc])
  case severities => exact forall₂_map_makes fun i => makes_mk _ decide_eq_true_iff

/-! ### The settings of a block -/

theorem decimalVal_four (l : List Byte) (o : Nat) :
    decimalVal l o 4 = codeAt l o 0 * 1000 + codeAt l o 1 * 100 + codeAt l o 2 * 10 + codeAt l o 3 := by
  show (((0 * 10 + codeAt l o 0) * 10 + codeAt l o 1) * 10 + codeAt l o 2) * 10 + codeAt l o 3 = _
  omega

theorem armOf_eq (n : Nat) : armOf n = if n = 1 then .contact else if n = 2 then .forced else .none := by
  unfold armOf
  split <;> simp_all

theorem parseConfig_values (c : List Byte) (k : Fin 8) :
    (parseConfig c).values.get k = decimalVal c (0x23 + 2 * k.val) 4 := by
  fin_cases k <;> rfl

theorem parseConfig_thresholds (c : List Byte) (i : Fin 6) : (parseConfig c).thresholds.get i = thresholdsAt c i.val := by
  fin_cases i <;> rfl

theorem parseConfig_arms (c : List Byte) (i : Fin 6) : (parseConfig c).arms.get i = armRowAt c i.val := by
  fin_cases i <;> rfl

theorem parseConfig_severity (c : List Byte) (k : IncidentKind) :
    (parseConfig c).severity.get k = byteAt c (0x80 + kindCode k) := by
  cases k <;> rfl

theorem parseConfig_dialMethod (c : List Byte) : (parseConfig c).dialMethod = .tone ↔ byteAt c 0x33 = 0 := by
  simp only [parseConfig]
  split <;> simp_all

theorem parseConfig_supervision (c : List Byte) : (parseConfig c).supervision = .supervised ↔ byteAt c 0x34 = 0 := by
  simp only [parseConfig]
  split <;> simp_all

end Sys2Proof.Machine
end

section
/-!
PROOFS. The validations of a tariff bank and of the configuration block: the two requests, the pages that come in, and what
a valid block and a valid bank bring into force (O51).
-/

namespace Sys2Proof.Machine

/-! ### ACTIVATE_TARIFF -/

/-- The bank that a code of 0 or 1 names. -/
def namedBy (b : Nat) : Bank := if b = 0 then .a else .b

theorem bankOf_of_le {b : Nat} (h : b ≤ 1) : bankOf b = some (namedBy b) := by
  interval_cases b <;> rfl

theorem bankOf_of_lt {b : Nat} (h : 1 < b) : bankOf b = none := by
  unfold bankOf
  split
  · omega
  · omega
  · rfl

theorem firstPage_eq (k : Bank) : firstPage k = if k = .a then 10 else 42 := by
  cases k <;> rfl

theorem firstPage_namedBy (b : Nat) : firstPage (namedBy b) = if b = 0 then 10 else 42 := by
  by_cases h : b = 0 <;> simp [namedBy, h, firstPage]

theorem activateTariff_busy {s : State} (h : s.tariff.activation ≠ .none) (b v : Nat) :
    activateTariff b v s = respond .busy [] s := if_pos h

theorem activateTariff_refused {s : State} {b : Nat} (h : s.tariff.activation = .none) (hb : 1 < b ∨ namedBy b = s.tariff.bank)
    (v : Nat) : activateTariff b v s = respond .badParam [] s := by
  rw [activateTariff, if_neg (by simp [h])]
  by_cases hl : b ≤ 1
  · rw [bankOf_of_le hl]
    exact if_pos (hb.resolve_left (by omega))
  · rw [bankOf_of_lt (by omega)]

theorem activateTariff_begins {s : State} {b : Nat} (h : s.tariff.activation = .none) (hl : b ≤ 1)
    (hb : namedBy b ≠ s.tariff.bank) (v : Nat) : activateTariff b v s = { s with tariff := { s.tariff with
      activation := .validating, pendBank := namedBy b, pendVersion := v
      check := some ⟨namedBy b, some v, [], 0⟩, wantRead := some (if b = 0 then 10 else 42) } } := by
  rw [activateTariff, if_neg (by simp [h]), bankOf_of_le hl, ← firstPage_namedBy]
  exact if_neg hb

theorem takeRequest_activateTariff {image : List Byte} {s : State} (hc : byteAt image 0 = 4) (hp : s.start.phase = .ready) :
    takeRequest image s = activateTariff (byteAt image 2) (be2 image 3) (atWork image s) := by
  rw [takeRequest_carried (by omega) (by omega) (.inl hp)]
  simp only [carryOut, hc]

theorem be2_requestImage_version (code : Nat) (tag b : Byte) {n : Nat} (hn : n < 65536) :
    be2 (requestImage code tag (b :: w16 n)) 3 = n := by
  rw [requestImage_eq (by simp)]
  exact be2_bytes hn

/-! ### RELOAD_CONFIG -/

theorem reloadConfig_busy {s : State} (h : s.req.reload ≠ .none) : reloadConfig s = respond .busy [] s := if_pos h

theorem reloadConfig_begins {s : State} (h : s.req.reload = .none) : reloadConfig s =
    { s with req := { s.req with reload := .reading, reading := some [], wantRead := some 3 } } := if_neg (by simp [h])

theorem takeRequest_reloadConfig {image : List Byte} {s : State} (hc : byteAt image 0 = 5) (hp : s.start.phase = .ready) :
    takeRequest image s = reloadConfig (atWork image s) := by
  rw [takeRequest_carried (by omega) (by omega) (.inl hp)]
  simp only [carryOut, hc]

/-! ### The end of an activation -/

theorem clampMask_eq (x : Shadow) : x.clampMask =
    ((List.range x.bands.length).map fun i => if (x.bands.map (·.clamped)).getD i false = true then 2 ^ i else 0).sum := by
  rw [Shadow.clampMask, ← List.sum_eq_foldl]
  congr 1
  refine List.ext_getElem (by simp) fun i h _ => ?_
  rw [List.length_mapIdx] at h
  simp [h]

theorem clampDetail_eq (switched : Bool) (x : Shadow) : clampDetail switched x =
    b8 (if switched then 0 else 1) :: b8 ((x.bands.filter (·.clamped)).length) :: w32
      ((List.range x.bands.length).map fun i => if (x.bands.map (·.clamped)).getD i false = true then 2 ^ i else 0).sum := by
  rw [clampDetail, clampMask_eq]
  rfl

/-! ### What a configuration brings into force -/

theorem reseedChannel_settling (c : Fin 6) (s : State) : (reseedChannel c s).tamper.settling = s.tamper.settling := by
  have loiter (u : State) : (loiterRefresh u).tamper.settling = u.tamper.settling := by
    unfold loiterRefresh
    split
    · split <;> rfl
    · dsimp only
      split
      · rw [endCondition_tamper]; rfl
      · rfl
  have arm (u : State) : (armCheck c u).tamper.settling = u.tamper.settling := by
    unfold armCheck
    dsimp only
    split
    · rw [openIncident_tamper]; rfl
    · split
      · rw [endCondition_tamper]; rfl
      · rfl
  rw [reseedChannel, loiter, arm]
  rfl

theorem reseedIfHalted_settling (c : Fin 6) (s : State) : (reseedIfHalted c s).tamper.settling = s.tamper.settling := by
  unfold reseedIfHalted
  split
  · rfl
  · split
    · exact reseedChannel_settling c s
    · rfl

theorem reseedSet_single (c : Fin 6) {s : State} (h : s.tamper.settling = .running) :
    reseedSet (2 ^ (c.val + 1)) s = reseedChannel c s := by
  rw [reseedSet_running h]
  fin_cases c <;> rfl

/-- The halt timer of a channel has reached the limit in force. -/
def Halted (c : Fin 6) (s : State) : Prop :=
  ∃ t, (s.tamper.ch.get c).haltStart = some t ∧ t + 1000 * s.req.cfg.haltLimit ≤ s.now

/-- The loiter timer has reached the time in force, with the probe mark clear. -/
def Probed (s : State) : Prop :=
  s.tamper.probe = false ∧ ∃ t, s.tamper.loiter = .running t ∧ t + 1000 * s.req.cfg.loiter ≤ s.now

theorem reseedIfHalted_halted {c : Fin 6} {s : State} (h : s.tamper.settling = .running) (hh : Halted c s) :
    reseedIfHalted c s = reseedSet (2 ^ (c.val + 1)) s := by
  obtain ⟨t, ht, hl⟩ := hh
  rw [reseedSet_single c h, reseedIfHalted, ht]
  exact if_pos hl

theorem reseedIfHalted_rests {c : Fin 6} {s : State} (hh : ¬ Halted c s) : reseedIfHalted c s = s := by
  unfold reseedIfHalted
  split
  · rfl
  · next t ht => exact if_neg fun hl => hh ⟨t, ht, hl⟩

theorem probeIfReached_reached {s : State} (h : Probed s) : probeIfReached s = probeTrigger s := by
  obtain ⟨hp, t, ht, hl⟩ := h
  rw [probeIfReached, ht]
  exact if_pos (by simp [hp, hl])

theorem probeIfReached_rests {s : State} (h : ¬ Probed s) : probeIfReached s = s := by
  unfold probeIfReached
  split
  · next t ht =>
    refine if_neg fun k => h ?_
    obtain ⟨hl, hp⟩ := (Bool.and_eq_true ..).mp k
    exact ⟨by simpa using hp, t, ht, of_decide_eq_true hl⟩
  · rfl

theorem applyTamper_running {s : State} (h : s.tamper.settling = .running) : applyTamper s =
    checkAll (probeIfReached (reseedIfHalted 5 (reseedIfHalted 4 (reseedIfHalted 3 (reseedIfHalted 2 (reseedIfHalted 1
      (reseedIfHalted 0 { s with tamper := { s.tamper with
        ch := s.tamper.ch.map fun x => { x with rising := 0, falling := 0 } } }))))))) := if_neg (by simp [h])

/-- A channel's stage of the new settings: it is reseeded when its halt has reached the limit, and the unit stays RUNNING. -/
theorem reseedIfHalted_stage (c : Fin 6) {s : State} (h : s.tamper.settling = .running) :
    ∃ t, reseedIfHalted c s = t ∧ t.tamper.settling = .running ∧
      (Halted c s → t = reseedSet (2 ^ (c.val + 1)) s) ∧ (¬ Halted c s → t = s) :=
  ⟨_, rfl, (reseedIfHalted_settling c s).trans h, reseedIfHalted_halted h, reseedIfHalted_rests⟩

theorem applyTamper_stages {s : State} (h : s.tamper.settling = .running) : ∃ y0 y1 y2 y3 y4 y5 y6 y7 : State,
    y0 = { s with tamper := { s.tamper with ch := s.tamper.ch.map fun x => { x with rising := 0, falling := 0 } } } ∧
    (∀ p ∈ [((0 : Fin 6), y0, y1), (1, y1, y2), (2, y2, y3), (3, y3, y4), (4, y4, y5), (5, y5, y6)],
      (Halted p.1 p.2.1 → p.2.2 = reseedSet (2 ^ (p.1.val + 1)) p.2.1) ∧ (¬ Halted p.1 p.2.1 → p.2.2 = p.2.1)) ∧
    (Probed y6 → y7 = probeTrigger y6) ∧ (¬ Probed y6 → y7 = y6) ∧ applyTamper s = checkAll y7 := by
  obtain ⟨y0, e0, h0⟩ : ∃ y0 : State, { s with tamper := { s.tamper with
      ch := s.tamper.ch.map fun x => { x with rising := 0, falling := 0 } } } = y0 ∧ y0.tamper.settling = .running :=
    ⟨_, rfl, h⟩
  obtain ⟨y1, e1, h1, s1⟩ := reseedIfHalted_stage 0 h0
  obtain ⟨y2, e2, h2, s2⟩ := reseedIfHalted_stage 1 h1
  obtain ⟨y3, e3, h3, s3⟩ := reseedIfHalted_stage 2 h2
  obtain ⟨y4, e4, h4, s4⟩ := reseedIfHalted_stage 3 h3
  obtain ⟨y5, e5, h5, s5⟩ := reseedIfHalted_stage 4 h4
  obtain ⟨y6, e6, -, s6⟩ := reseedIfHalted_stage 5 h5
  refine ⟨y0, y1, y2, y3, y4, y5, y6, probeIfReached y6, e0.symm, ?_, probeIfReached_reached, probeIfReached_rests, ?_⟩
  · simp only [List.forall_mem_cons, List.not_mem_nil, false_implies, implies_true, and_true]
    exact ⟨s1, s2, s3, s4, s5, s6⟩
  · rw [applyTamper_running h, e0, e1, e2, e3, e4, e5, e6]

theorem reloadSucceeds_idle {s : State} (c : Settings) (h : s.call.st = .idle) : reloadSucceeds c s =
    applyConfig (respond .ok [b8 0]
      { s with req := { s.req with reload := .pending, pendCfg := some c, reading := none, wantRead := none } }) := if_pos h

theorem handResponse_pending (body : List Byte) (s : State) :
    (handResponse body s).req.reload = s.req.reload ∧ (handResponse body s).req.pendCfg = s.req.pendCfg := by
  unfold handResponse pushItem
  split <;> exact ⟨rfl, rfl⟩

/-! ### The pages of the configuration block -/

theorem configPage_none {s : State} {h : List Byte} (hr : s.req.reading = some h) (page : Nat) :
    configPage page none s = configFails ⟨1, 0, 1⟩ s := by
  rw [configPage, hr]

theorem configPage_next {s : State} {h : List Byte} {page : Nat} (hr : s.req.reading = some h) (hp : page < 5) (p : List Byte) :
    configPage page (some p) s =
      { s with req := { s.req with reading := some (h ++ p), wantRead := some (page + 1) } } := by
  rw [configPage, hr]
  exact if_pos hp

theorem configPage_invalid {s : State} {h p : List Byte} {page : Nat} {f : Finding} (hr : s.req.reading = some h)
    (hp : 5 ≤ page) (hf : checkConfig (h ++ p) = some f) : configPage page (some p) s = configFails f s := by
  rw [configPage, hr]
  refine (if_neg (by omega)).trans ?_
  rw [hf]

theorem configPage_valid {s : State} {h p : List Byte} {page : Nat} (hr : s.req.reading = some h)
    (hp : 5 ≤ page) (hf : checkConfig (h ++ p) = none) :
    configPage page (some p) s = configSucceeds (parseConfig (h ++ p)) s := by
  rw [configPage, hr]
  refine (if_neg (by omega)).trans ?_
  rw [hf]

/-! ### The pages of a bank -/

theorem namedVersion_some (l : List Byte) : namedVersion (some l) =
    if (l.take 62 |>.map (·.toNat)).sum % 65536 = be2 l 62 ∧ byteAt l 0 ≤ 1 then be2 l 1 else 0 := by
  have check : checkOk l = true ↔ (l.take 62 |>.map (·.toNat)).sum % 65536 = be2 l 62 := by
    rw [checkOk, byteSum_eq, beq_iff_eq]
  simp only [← check]
  by_cases hc : checkOk l = true
  · by_cases hb : byteAt l 0 ≤ 1
    · simp [namedVersion, namedBank, hc, bankOf_of_le hb, hb]
    · simp [namedVersion, namedBank, hc, bankOf_of_lt (not_le.mp hb), hb]
  · simp [namedVersion, namedBank, hc]

theorem validationFails_eq (v : Validation) (f : Finding) (s : State) : validationFails v f s =
    if v.expected = none then bankInvalid v.bank f s else activationFails f s := by
  unfold validationFails
  split <;> simp [*]

theorem validationSucceeds_eq (v : Validation) (s : State) : validationSucceeds v s =
    if v.expected = none then bankValid v.bank (shadowOf v.image) s else activationSucceeds (shadowOf v.image) s := by
  unfold validationSucceeds
  split <;> simp [*]

theorem validationNext_more {v : Validation} (h : v.image.length / 64 < v.pages) (s : State) : validationNext v s =
    { s with tariff := { s.tariff with
      check := some v, wantRead := some ((if v.bank = .a then 10 else 42) + v.image.length / 64) } } := by
  rw [← firstPage_eq]
  exact if_pos h

theorem validationNext_fails {v : Validation} {f : Finding} (h : v.pages ≤ v.image.length / 64)
    (hf : firstFail (bodyChecks v.image) = some f) (s : State) : validationNext v s = validationFails v f s := by
  rw [validationNext, if_neg (by omega), hf]

theorem validationNext_succeeds {v : Validation} (h : v.pages ≤ v.image.length / 64)
    (hf : firstFail (bodyChecks v.image) = none) (s : State) : validationNext v s = validationSucceeds v s := by
  rw [validationNext, if_neg (by omega), hf]

theorem bankPage_none {s : State} {v : Validation} (h : s.tariff.check = some v) :
    bankPage none s = validationFails v ⟨1, 0, 1⟩ s := by
  rw [bankPage, h]

theorem bankPage_later {s : State} {v : Validation} (h : s.tariff.check = some v) (hv : v.image ≠ []) (p : List Byte) :
    bankPage (some p) s = validationNext { v with image := v.image ++ p } s := by
  rw [bankPage, h]
  exact if_neg hv

theorem bankPage_header_fails {s : State} {v : Validation} {p : List Byte} {f : Finding} (h : s.tariff.check = some v)
    (hv : v.image = []) (hf : firstFail (headerChecks p v.expected) = some f) :
    bankPage (some p) s = validationFails v f s := by
  rw [bankPage, h]
  refine (if_pos hv).trans ?_
  simp only [hv, List.nil_append, hf]
  rfl

theorem bankPage_header_passes {s : State} {v : Validation} {p : List Byte} (h : s.tariff.check = some v)
    (hv : v.image = []) (hf : firstFail (headerChecks p v.expected) = none) :
    bankPage (some p) s = validationNext { v with image := p, pages := pagesOf (usedLength p) } s := by
  rw [bankPage, h]
  refine (if_pos hv).trans ?_
  simp only [hv, List.nil_append, hf]

/-- Settles O51: the two requests as rows and as images, the ends of both validations, the settings in force, the pages as they
come in, and the three tables test by test. -/
theorem tariffAndConfigRequests : Obligations.TariffAndConfigRequests := by
  unfold Obligations.TariffAndConfigRequests
  refine ⟨fun tag s h hp hi => ?rows, fun image s hp => ?images, fun x s => ?activated, fun f s => rfl, fun c s => ?reloaded,
    fun f s => rfl, fun s => ?taken, fun s page h hr => ?block, fun s v hv => ?bank, fun pre post f hpre => ?first,
    fun l hl => firstFail_all hl, ?tables, fun c => ?settings⟩
  case rows =>
    intro taken answer
    have hn : s.start.phase ≠ .resetting := by simp [hp]
    have direct (c : Instr) (code : Nat) (params : List Byte) (res : Result)
        (he : exec c s = complete (directRequest (requestImage code tag params) s)) (hl : params.length ≤ 62) (hc : code < 256)
        (ht : takeRequest (requestImage code tag params) s = respond res [] (taken code params)) :
        exec c s = answer code res.code (taken code params) := by
      rw [he, direct_taken h hn hi, ht, respond_direct res [] rfl hl hc]
    have begins (c : Instr) (image : List Byte) (t : State) (he : exec c s = complete (directRequest image s))
        (ht : takeRequest image s = t) : exec c s = .next (refreshPins (settle t)) := by
      rw [he, direct_taken h hn hi, ht]
    refine ⟨fun b v => ?activate, fun hb => ?busy, fun hn => ?idle⟩
    case activate =>
      intro t other
      have code : byteAt (requestImage 4 tag (b :: w16 v.toNat)) 0 = 4 := byteAt_requestImage_code (by simp) (by decide) tag
      have carried : takeRequest (requestImage 4 tag (b :: w16 v.toNat)) s = activateTariff b.toNat v.toNat t := by
        rw [takeRequest_activateTariff code hp, byteAt_requestImage_param 4 tag b _ (by simp),
          be2_requestImage_version 4 tag b v.isLt]
        rfl
      exact ⟨fun ha => direct _ 4 _ .busy rfl (by simp) (by decide) (carried.trans (activateTariff_busy (s := t) ha _ _)),
        fun ha hb => direct _ 4 _ .badParam rfl (by simp) (by decide) (carried.trans (activateTariff_refused (s := t) ha hb _)),
        fun ha hl hb => begins _ _ _ rfl (carried.trans (activateTariff_begins (s := t) ha hl hb _))⟩
    all_goals
      have carried := takeRequest_reloadConfig (s := s) (byteAt_requestImage_code (code := 5) (params := []) (by simp)
        (by decide) tag) hp
    case busy => exact direct _ 5 _ .busy rfl (by simp) (by decide) (carried.trans (reloadConfig_busy hb))
    case idle => exact begins _ _ _ rfl (carried.trans (reloadConfig_begins hn))
  case images =>
    intro t b other
    refine ⟨fun hc => ⟨fun ha => ?_, fun ha hb => ?_, fun ha hl hb => ?_⟩, fun hc => ⟨fun hr => ?_, fun hr => ?_⟩⟩
    · exact (takeRequest_activateTariff hc hp).trans (activateTariff_busy (s := t) ha _ _)
    · exact (takeRequest_activateTariff hc hp).trans (activateTariff_refused (s := t) ha hb _)
    · exact (takeRequest_activateTariff hc hp).trans (activateTariff_begins (s := t) ha hl hb _)
    · exact (takeRequest_reloadConfig hc hp).trans (reloadConfig_busy (s := t) hr)
    · exact (takeRequest_reloadConfig hc hp).trans (reloadConfig_begins (s := t) hr)
  case activated =>
    intro t detail
    refine ⟨fun hs => ?_, fun hs => ?_⟩
    · refine (if_pos hs).trans ?_
      rw [clampDetail_eq, tariffSwitch_pending (x := x) rfl rfl]
      rfl
    · refine (if_neg hs).trans ?_
      rw [clampDetail_eq]
      rfl
  case reloaded =>
    refine ⟨fun hs => if_neg hs, fun hs => ?_, fun hr hc => applyConfig_pending hr hc, fun hr => applyConfig_rests (.inl hr)⟩
    obtain ⟨hr, hc⟩ := handResponse_pending (responseBody (byteAt s.req.latched 0) (byteAt s.req.latched 1) 0 [b8 0])
      { s with req := { s.req with
        reload := .pending, pendCfg := some c, reading := none, wantRead := none
        lastCode := byteAt s.req.latched 0, lastTag := byteAt s.req.latched 1, lastResult := 0 } }
    exact (reloadSucceeds_idle c hs).trans (applyConfig_pending hr hc)
  case taken =>
    intro halted probed
    refine ⟨?_, fun hd => if_pos hd, fun hd => if_neg hd, fun hs => if_pos hs, fun hs => ?_⟩
    · rw [takeSettings, refreshAlmostFull, ringAlmostFull_eq]
      rfl
    · exact applyTamper_stages hs
  case block =>
    intro fails succeeds
    have succeeded (c : Settings) : configSucceeds c s = succeeds c := rfl
    have failed (f : Finding) : configFails f s = fails f := rfl
    exact ⟨(configPage_none hr page).trans (failed _), fun p => ⟨fun hp => configPage_next hr hp p,
      fun hp f hf => (configPage_invalid hr hp hf).trans (failed f),
      fun hp hf => (configPage_valid hr hp hf).trans (succeeded _)⟩⟩
  case bank =>
    intro ring version fails succeeds goesOn
    have named : namedVersion (pageD s) = version := by
      simp only [version, pageD]
      cases s.start.vaultPages.getD 3 none with
      | none => rfl
      | some l => exact namedVersion_some l
    have failed (w : Validation) (f : Finding) (he : w.expected = v.expected) (hb : w.bank = v.bank) :
        validationFails w f s = fails f := by
      rw [validationFails_eq, he, hb, bankInvalid, named]
      rfl
    have succeeded (w : Validation) (he : w.expected = v.expected) (hb : w.bank = v.bank) :
        validationSucceeds w s = succeeds (shadowOf w.image) := by
      rw [validationSucceeds_eq, he, hb]
      rfl
    have next (image : List Byte) (pages : Nat) :
        goesOn image pages (validationNext ⟨v.bank, v.expected, image, pages⟩ s) := by
      let w : Validation := ⟨v.bank, v.expected, image, pages⟩
      refine ⟨fun h => ?_, fun h f hf => ?_, fun h hf => ?_⟩
      · exact validationNext_more (v := w) h s
      · exact (validationNext_fails (v := w) h hf s).trans (failed w f rfl rfl)
      · exact (validationNext_succeeds (v := w) h hf s).trans (succeeded w rfl rfl)
    refine ⟨(bankPage_none hv).trans (failed v _ rfl rfl), fun p f hi hf => ?_, fun p hi hf => ?_, fun p hi => ?_⟩
    · exact (bankPage_header_fails hv hi hf).trans (failed v f rfl rfl)
    · rw [bankPage_header_passes hv hi hf]
      exact next p _
    · rw [bankPage_later hv hi]
      exact next _ _
  case first => rw [firstFail_append hpre]; rfl
  case tables =>
    refine ⟨fun t e => forall₂_makes (headerChecks_tests t e), fun t => forall₂_makes ?_,
      fun c => ⟨rfl, forall₂_makes (configChecks_tests c)⟩⟩
    exact List.rel_append (List.rel_append (.cons (makes_mk _ (bankSum_iff t))
      (forall₂_flatMap_makes (bandChecks_tests t) _)) (forall₂_flatMap_makes (routeChecks_tests t) _))
      (forall₂_map_makes fun i => makes_mk _ (noEarlierTwin_iff t i))
  case settings =>
    refine ⟨rfl, rfl, rfl, fun k => ?_, parseConfig_dialMethod c, parseConfig_supervision c, rfl, rfl, rfl, rfl, rfl, rfl, rfl,
      rfl, rfl, rfl, rfl, rfl, rfl, rfl, rfl, rfl, rfl, rfl, rfl, parseConfig_thresholds c, fun i => ?_, parseConfig_severity c⟩
    · rw [parseConfig_values, decimalVal_four]
    · rw [parseConfig_arms, armRowAt, armOf_eq, armOf_eq, armOf_eq]

end Sys2Proof.Machine
end

section
/-!
PROOFS. Resets, and what start-up makes of the vault pages, the ring and the log (O46).
-/

namespace Sys2Proof.Machine

/-! ### Resets -/

theorem tornByReset_rests {s : State} (h : ∀ a d, s.writer.phase ≠ .writing a d) : tornByReset s = s := by
  unfold tornByReset
  split
  · next a d hw => exact absurd hw (h a d)
  · rfl

theorem tornByReset_writing {s : State} {a : Nat} {d : List Byte} (h : s.writer.phase = .writing a d) :
    ∃ n, n ≤ d.length ∧ tornByReset s = { s with
      link := { s.link with mem := memStore s.link.mem a (d.take n), tracked := none }, draws := s.draws + 1 } := by
  refine ⟨Config.tornBytes s.draws % (d.length + 1), Nat.le_of_lt_succ (Nat.mod_lt _ (Nat.succ_pos _)), ?_⟩
  rw [tornByReset, h]
  rfl

theorem exec_powerOnReset (s : State) : exec .powerOnReset s =
    .next (refreshPins (if s.start.rstHeld then resetBlocks Clock.zero false s.start.rstHeld (tornByReset s)
      else endReset (resetBlocks Clock.zero false s.start.rstHeld (tornByReset s)))) := rfl

theorem exec_rstReset (s : State) : exec .rstReset s =
    .next (refreshPins (resetBlocks s.clock s.pfw true (tornByReset s))) := rfl

theorem exec_endOfReset {s : State} (h : s.start.rstHeld = true) : exec .endOfReset s = .next (refreshPins { s with
    start := { s.start with rstHeld := false, resettingEnd := some (s.now + 16) }
    line := { s.line with guardEnd := some (s.now + 1000) } }) := by
  simp only [exec, execEndOfReset, h, if_true]
  rfl

theorem exec_resettingEnd {s t : State} {d : Nat} (h : s.start.rstHeld = false) (hp : s.start.phase = .resetting)
    (hd : s.start.resettingEnd = some d) (ht : beginScanning (s.reach d) = t) :
    exec .resettingEnd s = .next (refreshPins (settle t)) := by
  subst ht
  simp only [exec, execResettingEnd]
  exact complete_timer (c := fun s => s.start.phase = .resetting) (x := fun s => s.start.resettingEnd) h hp hd

/-- A held reset leaves the pins as it made them. -/
theorem refreshPins_resetBlocks (c : Clock) (p h : Bool) (s : State) :
    refreshPins (resetBlocks c p h s) = resetBlocks c p h s := by
  cases p <;> rfl

theorem refreshPins_endReset (s : State) : refreshPins (endReset (resetBlocks Clock.zero false false s)) =
    endReset (resetBlocks Clock.zero false false s) := rfl

theorem powerOnReset_ends {s : State} (h : s.start.rstHeld = false) :
    exec .powerOnReset s = .next (endReset (resetBlocks Clock.zero false false (tornByReset s))) := by
  rw [exec_powerOnReset, h, if_neg (by decide), refreshPins_endReset]

theorem powerOnReset_held {s : State} (h : s.start.rstHeld = true) :
    exec .powerOnReset s = .next (resetBlocks Clock.zero false true (tornByReset s)) := by
  rw [exec_powerOnReset, h, if_pos rfl, refreshPins_resetBlocks]

theorem rstReset_held (s : State) : exec .rstReset s = .next (resetBlocks s.clock s.pfw true (tornByReset s)) := by
  rw [exec_rstReset, refreshPins_resetBlocks]

/-! ### The vault pages -/

theorem checkOk_iff (l : List Byte) : checkOk l = true ↔ (l.take 62 |>.map (·.toNat)).sum % 65536 = be2 l 62 := by
  rw [checkOk, byteSum_eq, beq_iff_eq]

/-- A vault page was read, its check word is right, and its money field, at `off`, is decimal. -/
def PageHolds (p : Option (List Byte)) (off : Nat) (l : List Byte) : Prop :=
  p = some l ∧ (l.take 62 |>.map (·.toNat)).sum % 65536 = be2 l 62 ∧ ∀ i < 8, codeAt l off i ≤ 9

theorem pageHolds_iff {p : Option (List Byte)} {off : Nat} {l : List Byte} :
    PageHolds p off l ↔ p = some l ∧ vaultPageOk p off = true := by
  refine and_congr_right fun h => ?_
  subst h
  simp only [vaultPageOk, Bool.and_eq_true, checkOk_iff, decimalOk_iff]

theorem not_pageHolds {p : Option (List Byte)} {off : Nat} (h : ∀ l, ¬ PageHolds p off l) : vaultPageOk p off = false := by
  cases p with
  | none => rfl
  | some l => exact Bool.eq_false_iff.mpr fun k => h l (pageHolds_iff.mpr ⟨rfl, k⟩)

theorem startSequence_pageC {c : Option (List Byte)} {l : List Byte} (h : PageHolds c 0x2F l) (b : Option (List Byte)) :
    startSequence b c = be2 l 0 := by
  obtain ⟨rfl, ok⟩ := pageHolds_iff.mp h
  simp [startSequence, ok]

theorem startSequence_pageB {b c : Option (List Byte)} {l : List Byte} (hc : vaultPageOk c 0x2F = false)
    (h : PageHolds b 0x24 l) : startSequence b c = be2 l 0x2A := by
  obtain ⟨rfl, ok⟩ := pageHolds_iff.mp h
  cases c <;> simp [startSequence, ok, hc]

theorem startSequence_none {b c : Option (List Byte)} (hc : vaultPageOk c 0x2F = false) (hb : vaultPageOk b 0x24 = false) :
    startSequence b c = 0 := by
  cases b <;> cases c <;> simp [startSequence, hb, hc]

theorem faultEpoch_pageA {a : Option (List Byte)} {l : List Byte} (h : PageHolds a 0x28 l) (b : Option (List Byte)) :
    faultEpoch a b = be2 l 0x2C := by
  obtain ⟨rfl, ok⟩ := pageHolds_iff.mp h
  simp [faultEpoch, ok]

theorem faultEpoch_pageB {a b : Option (List Byte)} {l : List Byte} (ha : vaultPageOk a 0x28 = false)
    (h : PageHolds b 0x24 l) : faultEpoch a b = be2 l 0x28 := by
  obtain ⟨rfl, ok⟩ := pageHolds_iff.mp h
  cases a <;> simp [faultEpoch, ok, ha]

theorem faultEpoch_none {a b : Option (List Byte)} (ha : vaultPageOk a 0x28 = false) (hb : vaultPageOk b 0x24 = false) :
    faultEpoch a b = 0 := by
  cases a <;> cases b <;> simp [faultEpoch, ha, hb]

theorem unfinished_some {c : Option (List Byte)} {pb pc : List Byte} (h : PageHolds c 0x2F pc) (h2 : byteAt pc 2 = 1)
    (hn : newer (be2 pc 0) (be2 pb 0x2A) = true) : unfinished c pb = some pc := by
  obtain ⟨rfl, ok⟩ := pageHolds_iff.mp h
  simp [unfinished, ok, h2, hn]

theorem unfinished_none_of_shown {c : Option (List Byte)} {pb pc : List Byte} (h : PageHolds c 0x2F pc)
    (hn : byteAt pc 2 ≠ 1 ∨ newer (be2 pc 0) (be2 pb 0x2A) = false) : unfinished c pb = none := by
  obtain ⟨rfl, ok⟩ := pageHolds_iff.mp h
  rcases hn with hn | hn <;> simp [unfinished, hn]

theorem unfinished_none_of_invalid {c : Option (List Byte)} (pb : List Byte) (h : vaultPageOk c 0x2F = false) :
    unfinished c pb = none := by
  cases c <;> simp [unfinished, h]

/-- What pages A and B, both valid, load. -/
def vaultLoaded (pa pb : List Byte) (seq : Nat) (v : Vault) : Vault :=
  { v with
    life := pageALife pa, unconfirmed := be4 pa 0x24, sat := decide (byteAt pa 0x2E % 2 = 1), epoch := be2 pa 0x2C
    base := pageBBase pb, collSeq := seq }

theorem loadVault_plain {pa pb : List Byte} {c : Option (List Byte)} (h : unfinished c pb = none) (s : State) :
    loadVault pa pb c s = { s with vault := vaultLoaded pa pb (startSequence (some pb) c) s.vault } := by
  rw [loadVault, h]
  rfl

theorem loadVault_finishes {pa pb pc : List Byte} {c : Option (List Byte)} {w : Vault} (h : unfinished c pb = some pc)
    (s : State) (hw : w = { vaultLoaded pa pb (startSequence (some pb) c) s.vault with
      base := (pageBBase pb).add (pageCSince pc) }) :
    loadVault pa pb c s = handOver (.collection (pc.take 62) (pageBBody ⟨w.base, w.epoch, w.collSeq⟩)) { s with vault := w } := by
  subst hw
  rw [loadVault, h]
  rfl

/-- Step 3 begins with the validation of bank k. -/
def bankScan (k : Bank) (y : State) : State :=
  let z := recomputeFill y
  { z with
    start := { z.start with step := 3 }
    tariff := { z.tariff with check := some ⟨k, none, [], 0⟩, wantRead := some (if k = .a then 10 else 42) } }

theorem startValidation_bankScan (k : Bank) (y : State) :
    startValidation k none ((recomputeFill y).onStart fun x => { x with step := 3 }) = bankScan k y := by
  rw [bankScan, ← firstPage_eq]
  rfl

theorem bankOf_eq_b (n : Nat) : (bankOf n).getD .a = .b ↔ n = 1 := by
  by_cases h : n ≤ 1
  · interval_cases n <;> decide
  · rw [bankOf_of_lt (by omega)]
    exact iff_of_false (by decide) (by omega)

theorem namedBank_eq_b (d : Option (List Byte)) : (namedBank d).getD .a = .b ↔
    ∃ l, d = some l ∧ (l.take 62 |>.map (·.toNat)).sum % 65536 = be2 l 62 ∧ byteAt l 0 = 1 := by
  cases d with
  | none => exact iff_of_false (by decide) (by rintro ⟨l, h, -⟩; cases h)
  | some l =>
    simp only [Option.some.injEq, exists_eq_left', ← checkOk_iff, ← bankOf_eq_b]
    by_cases h : checkOk l = true <;> simp [namedBank, h]

theorem bank_eq_of_iff {j k : Bank} {p : Prop} (hj : j = .b ↔ p) (hk : k = .b ↔ p) : j = k := by
  have h := hj.trans hk.symm
  cases j <;> cases k <;> simp_all

theorem finishVault_loads {s : State} {pa pb : List Byte} {c d : Option (List Byte)} {k : Bank}
    (hs : s.start.vaultPages = [some pa, some pb, c, d]) (hk : (namedBank d).getD .a = k)
    (ha : vaultPageOk (some pa) 0x28 = true) (hb : vaultPageOk (some pb) 0x24 = true) :
    finishVault s = bankScan k (loadVault pa pb c s) := by
  subst hk
  rw [← startValidation_bankScan, finishVault, pageD, hs]
  simp only [List.getD_cons_zero, List.getD_cons_succ, ha, hb, Bool.and_self, if_true]

theorem finishVault_faults {s : State} {a b c d : Option (List Byte)} {k : Bank}
    (hs : s.start.vaultPages = [a, b, c, d]) (hk : (namedBank d).getD .a = k)
    (h : vaultPageOk a 0x28 = false ∨ vaultPageOk b 0x24 = false) :
    finishVault s = bankScan k (raiseAccountFault { s with vault := { s.vault with
      epoch := faultEpoch a b, collSeq := startSequence b c } }) := by
  subst hk
  rw [← startValidation_bankScan, finishVault, pageD, hs]
  have bad : (vaultPageOk a 0x28 && vaultPageOk b 0x24) = false := by rcases h with h | h <;> simp [h]
  cases a <;> cases b <;> simp [bad, State.onVault]

theorem vaultPage_more {page : Nat} (h : page < 9) (bytes : Option (List Byte)) (s : State) : vaultPage page bytes s =
    { s with start := { s.start with
      vaultPages := s.start.vaultPages ++ [bytes], want := some (.vault, page + 1) } } := if_pos h

theorem vaultPage_last {page : Nat} (h : 9 ≤ page) (bytes : Option (List Byte)) (s : State) : vaultPage page bytes s =
    finishVault { s with start := { s.start with vaultPages := s.start.vaultPages ++ [bytes] } } := if_neg (by omega)

/-! ### The highest sequence and the counters of a scan -/

theorem highest_of_newest {l pre post : List Nat} {h : Nat} (hl : l = pre ++ h :: post) (top : ∀ a ∈ l, newer a h = false)
    (below : ∀ b ∈ pre, ∃ a ∈ l, newer a b = true) : highest l = h := by
  have older : pre.filter (fun a => l.all fun b => !newer b a) = [] := by
    refine List.filter_eq_nil_iff.mpr fun b hb k => ?_
    obtain ⟨a, ha, hn⟩ := below b hb
    simpa [hn] using List.all_eq_true.mp k a ha
  have first : newest l = h :: post.filter (fun a => l.all fun b => !newer b a) := by
    have keeps : (l.all fun b => !newer b h) = true := List.all_eq_true.mpr fun a ha => by simp [top a ha]
    calc newest l = (pre ++ h :: post).filter (fun a => l.all fun b => !newer b a) := by rw [newest, ← hl]
      _ = _ := by rw [List.filter_append, older, List.nil_append]; exact List.filter_cons_of_pos keeps
  rw [highest, first]

theorem scanCounters_some {span h n : Nat} {l : List Nat} (hl : l ≠ []) (hh : h = highest l)
    (hn : n = (l.filter fun x => decide (gap16 h x ≤ span)).length) (small : n ≤ 65535) :
    scanCounters span l = ((h + 1) % 65536, h, (h + (65536 - n)) % 65536) := by
  subst hh
  have count : (fresh span (highest l) l).length = n := hn.symm
  refine (if_neg hl).trans ?_
  simp only [count, gap16, Nat.mod_eq_of_lt (show n < 65536 by omega)]
  rfl

/-! ### The ring scan -/

theorem ringAccepts_iff (slot : Nat) (p : List Byte) : ringAccepts slot p = true ↔
    (p.take 62 |>.map (·.toNat)).sum % 65536 = be2 p 62 ∧ 1 ≤ byteAt p 2 ∧ byteAt p 2 ≤ 3 ∧ be2 p 0 % 128 = slot := by
  simp only [ringAccepts, Bool.and_eq_true, checkOk_iff, within_iff, beq_iff_eq, and_assoc]

/-- After a ring page: the next read, or the records written again. -/
def ringGoesOn (page : Nat) (y : State) : State :=
  if page < 201 then { y with start := { y.start with want := some (.ring, page + 1) } } else rewriteRing y

theorem ringPage_accepted {page : Nat} {p : List Byte} (h : ringAccepts (page - 74) p = true) (s : State) :
    ringPage page (some p) s =
      ringGoesOn page { s with start := { s.start with ring := s.start.ring ++ [(be2 p 0, p)] } } := by
  simp only [ringPage, h, if_true]
  rfl

theorem ringPage_passed_over {page : Nat} {bytes : Option (List Byte)}
    (h : ∀ p, bytes = some p → ringAccepts (page - 74) p = false) (s : State) :
    ringPage page bytes s = ringGoesOn page s := by
  cases bytes with
  | none => rfl
  | some p =>
    simp only [ringPage, h p rfl, Bool.false_eq_true, if_false]
    rfl

/-- Code `i` of the number of a record read: the padding 15 past its length. -/
def readCode (p : List Byte) (i : Nat) : Nat := if i < byteAt p 9 then codeAt p 0x0A i else 15

/-- The bytes of an INTERRUPTED record: those of the OPEN record read, with its state and cause. -/
def rewrittenBody (p : List Byte) : List Byte :=
  p.take 2 ++ [3, 11] ++ (p.drop 4).take 6
    ++ (List.range 10).map (fun i => b8 (16 * readCode p (2 * i) + readCode p (2 * i + 1)))
    ++ (p.drop 0x14).take 37 ++ List.replicate 5 0

theorem codes_getD {p : List Byte} {i : Nat} (h : i < 20) :
    (codes p 0x0A (min 20 (byteAt p 9))).getD i 15 = readCode p i := by
  unfold codes readCode
  by_cases hi : i < byteAt p 9
  · rw [if_pos hi, List.getD_eq_getElem?_getD, List.getElem?_map, List.getElem?_range (by omega)]
    rfl
  · rw [if_neg hi, List.getD_eq_default]
    simp only [List.length_map, List.length_range]
    omega

theorem interruptedBody_eq {p : List Byte} (h : p.length = 64) : interruptedBody p = rewrittenBody p := by
  have packed : packCodes (codes p 0x0A (min 20 (byteAt p 9))) 10 =
      (List.range 10).map fun i => b8 (16 * readCode p (2 * i) + readCode p (2 * i + 1)) := by
    refine List.ext_getElem? fun i => ?_
    by_cases hi : i < 10
    · rw [packCodes_getElem? _ _ hi, codes_getD (by omega), codes_getD (by omega), List.getElem?_map,
        List.getElem?_range hi, Nat.mul_comm]
      rfl
    · rw [List.getElem?_eq_none (by simp; omega), List.getElem?_eq_none (by simp; omega)]
  have state : b8 RecordKind.rewrite.code = 3 := rfl
  have cause : b8 EndCause.powerFail.code = 11 := rfl
  rw [interruptedBody, packed, state, cause, fit_of_le (by simp; omega)]
  simp [rewrittenBody, h]

theorem rewriteRing_none {s : State} (h : openRecords s.start.ring = []) :
    rewriteRing s = finishRing { s with start := { s.start with rewrites := (openRecords s.start.ring).length } } := if_pos h

theorem rewriteRing_some {s : State} (hl : ∀ x ∈ s.start.ring, x.2.length = 64) (h : openRecords s.start.ring ≠ []) :
    rewriteRing s = (openRecords s.start.ring).foldl (fun y x => handRecord ⟨x.1, .rewrite, rewrittenBody x.2⟩ y)
      { s with start := { s.start with rewrites := (openRecords s.start.ring).length } } := by
  refine (if_neg h).trans (List.foldl_ext _ _ _ fun y x hx => ?_)
  rw [interruptedBody_eq (hl x (List.mem_of_mem_filter hx))]

theorem finishRing_counters {s : State} {h q k n : Nat} (hc : scanCounters 127 (s.start.ring.map (·.1)) = (q, h, k))
    (hn : gap16 q (next16 k) = n) : finishRing s = { s with
      start := { s.start with ring := [], step := 5, want := some (.log, 202) }
      call := { s.call with
        nextSeq := q, lastFinal := h, ackedSeq := k
        reasons := if 124 ≤ n then s.call.reasons.put .ringFull true else s.call.reasons
        almostFull := decide (128 - s.req.cfg.ringMargin ≤ n) } } := by
  let t : State := { s with call := { s.call with nextSeq := q, lastFinal := h, ackedSeq := k } }
  have count : t.call.unacked = n := hn
  have left : finishRing s = (refreshAlmostFull (if 124 ≤ t.call.unacked then raiseReason .ringFull t else t)).onStart
      fun x => { x with ring := [], step := 5, want := some (.log, 202) } := by
    rw [finishRing, hc]
    rfl
  rw [left, count]
  by_cases full : 124 ≤ n
  · rw [if_pos full, if_pos full, ← count]
    rfl
  · rw [if_neg full, if_neg full, ← count]
    rfl

theorem rewriteLeft_last {s : State} (h : s.start.rewrites = 1 ∧ s.start.phase = .scanning) :
    rewriteLeft s = finishRing { s with start := { s.start with rewrites := s.start.rewrites - 1 } } := if_pos h

theorem rewriteLeft_waits {s : State} (h : ¬ (s.start.rewrites = 1 ∧ s.start.phase = .scanning)) :
    rewriteLeft s = { s with start := { s.start with rewrites := s.start.rewrites - 1 } } := if_neg h

/-! ### The log scan, the purge and READY -/

theorem logAccepts_iff (slot : Nat) (x : List Byte) : logAccepts slot x = true ↔
    (x.take 30 |>.map (·.toNat)).sum % 65536 = be2 x 30 ∧ 1 ≤ byteAt x 4 ∧ byteAt x 4 ≤ 16 ∧ be2 x 0 % 64 = slot := by
  simp only [logAccepts, Bool.and_eq_true, byteSum_eq, within_iff, beq_iff_eq, and_assoc]

/-- After a log page: the next read, or the end of the scan. -/
def logGoesOn (page : Nat) (l : List Nat) (s : State) : State :=
  let t : State := { s with start := { s.start with log := s.start.log ++ l } }
  if page < 233 then { t with start := { t.start with want := some (.log, page + 1) } } else finishLog t

theorem logPage_none (page : Nat) (s : State) : logPage page none s = logGoesOn page [] s := rfl

theorem logPage_some (page : Nat) (p : List Byte) (s : State) : logPage page (some p) s = logGoesOn page
    ((if logAccepts (2 * (page - 202)) (p.take 32) then [be2 p 0] else [])
      ++ (if logAccepts (2 * (page - 202) + 1) (p.drop 32) then [be2 p 32] else [])) s := rfl

theorem enterPurging_waits {s : State} (h : s.pfw = true) : enterPurging s = { s with
    start := { s.start with phase := .purging, step := 0 }, coin := { s.coin with purgeNext := some s.now } } := if_pos h

theorem enterPurging_pulses {s : State} (h : ¬ s.pfw = true) : enterPurging s = { s with
    start := { s.start with phase := .purging, step := 0 }
    pins := { s.pins with flapC := false, flapR := true }
    coin := { s.coin with
      purgeStarted := true, purgeNext := none, purgePulseEnd := some (s.now + s.req.cfg.pulse) } } := if_neg h

theorem finishLog_counters {s : State} {q h k : Nat} (hc : scanCounters 63 s.start.log = (q, h, k)) : finishLog s =
    enterPurging { s with
      inc := { s.inc with nextLog := q, lastLog := h, ackedLog := k }, start := { s.start with log := [] } } := by
  rw [finishLog, hc]
  rfl

theorem enterReady_eq (s : State) : enterReady s =
    let t : State := { s with start := { s.start with phase := .ready, step := 0 } }
    let u : State := if s.call.hook = .off
      then { t with call := { t.call with st := .parked, waiting := false }, num := { t.num with keys := [] } } else t
    lineGrant (if s.vault.doorOpen = true
      then openIncident .vaultOpen { u with vault := { u.vault with session := .unauthorised } } else u) := by
  unfold enterReady
  by_cases h : s.call.hook = .off
  · simp only [h, if_true, State.onStart, enterParked, State.onCall, State.onNum, beginUnauthorised, State.onVault]
  · simp only [h, if_false, State.onStart, beginUnauthorised, State.onVault]

/-- Settles O46: the resets with and without an own write cut short, the vault pages by what is valid, the two scans with their
counters, and the entry into PURGING and READY. -/
theorem resetsAndStartUp : Obligations.ResetsAndStartUp := by
  unfold Obligations.ResetsAndStartUp
  refine ⟨fun s => ?resets, fun s => ?vault, fun l pre post h => highest_of_newest, fun s => ?ring, fun s => ?log,
    fun c b s => ?handing⟩
  case resets =>
    intro blocks powered held pinned
    refine ⟨fun hw => ?_, fun a d hw => ?_, exec_endOfReset, fun d h hp hd => exec_resettingEnd h hp hd rfl⟩
    · have torn := tornByReset_rests hw
      exact ⟨fun h => by rw [powerOnReset_ends h, torn]; rfl, fun h => by rw [powerOnReset_held h, torn]; rfl,
        by rw [rstReset_held, torn]; rfl⟩
    · obtain ⟨n, hn, torn⟩ := tornByReset_writing hw
      exact ⟨n, hn, fun h => by rw [powerOnReset_ends h, torn]; rfl, fun h => by rw [powerOnReset_held h, torn]; rfl,
        by rw [rstReset_held, torn]; rfl⟩
  case vault =>
    intro valid counts next
    refine ⟨fun page bytes => ⟨fun h => vaultPage_more h bytes s, fun h => vaultPage_last h bytes s⟩,
      fun a b c d k hs hk => ?_⟩
    have named := bank_eq_of_iff (namedBank_eq_b d) hk
    refine ⟨fun pa pb ha hb => ?loads, fun hab => ?faults⟩
    case loads =>
      intro v
      obtain ⟨rfl, okA⟩ := pageHolds_iff.mp ha
      obtain ⟨rfl, okB⟩ := pageHolds_iff.mp hb
      have loads : finishVault s = next k (loadVault pa pb c s) := finishVault_loads hs named okA okB
      refine ⟨fun pc hc => ⟨fun hn => ?_, fun hn => ?_⟩, fun hc => ?_⟩
      · intro w
        rw [loads, loadVault_finishes (w := w) (unfinished_some hc hn.1 hn.2) s
          (by rw [startSequence_pageC hc]; rfl)]
      · rw [loads, loadVault_plain (unfinished_none_of_shown hc hn), startSequence_pageC hc]
        rfl
      · rw [loads, loadVault_plain (unfinished_none_of_invalid pb (not_pageHolds hc)),
          startSequence_pageB (not_pageHolds hc) hb]
        rfl
    case faults =>
      refine ⟨faultEpoch a b, startSequence b c, ?_, fun l hl => faultEpoch_pageA hl b,
        fun l ha hl => faultEpoch_pageB (not_pageHolds ha) hl,
        fun ha hb => faultEpoch_none (not_pageHolds ha) (not_pageHolds hb), fun l hl => startSequence_pageC hl b,
        fun l hc hl => startSequence_pageB (not_pageHolds hc) hl,
        fun hc hb => startSequence_none (not_pageHolds hc) (not_pageHolds hb)⟩
      exact finishVault_faults hs named (hab.imp not_pageHolds not_pageHolds)
  case ring =>
    intro body
    refine ⟨fun page bytes => ?pages, fun q hl hq => ?rewrites, ⟨rewriteLeft_last, rewriteLeft_waits⟩,
      fun h n hne hlen hh hlt hn => ?counters, fun he => ?empty⟩
    case pages =>
      intro accepted go
      refine ⟨fun p hp => ?_, fun hp => ?_⟩
      · obtain ⟨rfl, ok⟩ := hp
        exact ringPage_accepted ((ringAccepts_iff _ p).mpr ok) s
      · exact ringPage_passed_over (fun p e => Bool.eq_false_iff.mpr fun ok => hp p ⟨e, (ringAccepts_iff _ p).mp ok⟩) s
    case rewrites =>
      subst hq
      exact ⟨rewriteRing_none, rewriteRing_some hl⟩
    case counters =>
      have small : n ≤ 128 := by
        rw [hn]
        exact (List.length_filter_le ..).trans hlen
      have counted : n = ((s.start.ring.map (·.1)).filter fun x => decide (gap16 h x ≤ 127)).length := by
        rw [hn, List.filter_map, List.length_map]
        rfl
      refine finishRing_counters (scanCounters_some (by simpa using hne) hh counted (by omega)) ?_
      rw [gap16, next16]
      omega
    case empty =>
      have none : scanCounters 127 (s.start.ring.map (·.1)) = (0, 65535, 65535) := by
        rw [he]
        rfl
      have full : decide (128 - s.req.cfg.ringMargin ≤ 0) = decide (128 ≤ s.req.cfg.ringMargin) :=
        decide_eq_decide.mpr (by omega)
      rw [finishRing_counters none (n := 0) rfl, if_neg (by decide), full]
  case log =>
    refine ⟨fun page bytes => ?pages, ⟨fun he => ?empty, fun h hne hlen hh => ?counters⟩, enterReady_eq s⟩
    case pages =>
      intro accepted go
      have first (p : List Byte) : logAccepts (2 * (page - 202)) (p.take 32) = true ↔ accepted 0 (p.take 32) := by
        simp only [logAccepts_iff, accepted, Nat.add_zero]
      have second (p : List Byte) : logAccepts (2 * (page - 202) + 1) (p.drop 32) = true ↔ accepted 1 (p.drop 32) := by
        simp only [logAccepts_iff, accepted]
      refine ⟨fun e => e ▸ logPage_none page s, fun p e => ?_⟩
      subst e
      refine ⟨fun h0 h1 => ?_, fun h0 h1 => ?_, fun h0 h1 => ?_, fun h0 h1 => ?_⟩ <;>
        rw [← first] at h0 <;> rw [← second] at h1 <;> simp only [logPage_some, h0, h1] <;> rfl
    case empty =>
      have none : scanCounters 63 s.start.log = (0, 65535, 65535) := by
        rw [he]
        rfl
      rw [finishLog_counters none]
      by_cases hp : s.pfw = true
      · exact (enterPurging_waits (by exact hp)).trans (if_pos hp).symm
      · exact (enterPurging_pulses (by exact hp)).trans (if_neg hp).symm
    case counters =>
      have small := (List.length_filter_le (fun x => decide (gap16 h x ≤ 63)) s.start.log).trans hlen
      rw [finishLog_counters (scanCounters_some hne hh rfl (by omega))]
      by_cases hp : s.pfw = true
      · exact (enterPurging_waits (by exact hp)).trans (if_pos hp).symm
      · exact (enterPurging_pulses (by exact hp)).trans (if_neg hp).symm
  case handing => exact ⟨fun h => if_pos (hasRoom_vault.mpr h), rfl⟩

end Sys2Proof.Machine
end
